-- ==== Sys2Proof/Word.lean ====
section
/-!
DEFINITION. The word types of ETS-I2CM (spec 00_scope.md R6, R7): every width the spec gives, bit 0 least significant.
-/

namespace Sys2Proof

/-- One byte of `TXBUF`, `RXBUF` or the wire; also a counter or buffer index (R6: `CNT_W`, `BUF_AW` = 8). -/
abbrev Byte := BitVec 8

/-- A target address (R6: `ADDR_W` = 7). -/
abbrev Address := BitVec 7

/-- A host register or format H command word (R33, R81). -/
abbrev HostWord := BitVec 32

/-- A format B command word (R83). -/
abbrev BusWord := BitVec 12

/-- A limit result, or a sensor value after sign extension (R6: `RES_LIM_W` = 16). -/
abbrev Half := BitVec 16

end Sys2Proof
end

