-- ==== Sys2Proof/Syntax.lean ====
section
/-!
DEFINITION. The operations of ETS-I2CM: one constructor of `Instr` per row of spec/opcode_table.json, and the words that carry
them at the block's interfaces (spec 30_encoding.md R80).
-/

namespace Sys2Proof

/-- The limit selector `which` (R81, R88): 0 hysteresis, 1 overset. -/
inductive Limit where
  | hysteresis
  | overset
  deriving DecidableEq, Repr

/-- The phase the Bus Controller reports (R86 bit 0): 0 `WRITE`, 1 `READ`. -/
inductive BusPhase where
  | write
  | read
  deriving DecidableEq, Repr

/-- The answer of `status()` (R86): which phase, and whether the receive shift register holds a completed byte. -/
structure StatusWord where
  phase : BusPhase
  bufferFull : Bool
  deriving DecidableEq, Repr

/-- The five built-in continuations (R24, R87). -/
inductive Continuation where
  | notify
  | decodeTemp
  | decodeThyst
  | decodeTos
  | chain
  deriving DecidableEq, Repr

/-- One constructor per row of the opcode table: formats H, B, E, C, then the delay step. -/
inductive Instr where
  /-- `CONFIGURE mode` (R161); the mode is an opaque pattern. -/
  | configure (mode : Byte)
  /-- `START` (R131). -/
  | start
  /-- `POWER_UP` (R162). -/
  | powerUp
  /-- `POWER_DOWN` (R163). -/
  | powerDown
  /-- `START_CONV` (R164). -/
  | startConv
  /-- `READ_MEAS` (R165). -/
  | readMeas
  /-- `READ_LIMIT which` (R166). -/
  | readLimit (which : Limit)
  /-- `WRITE_LIMIT which, v` (R167); `v` is the signed 16-bit limit. -/
  | writeLimit (which : Limit) (v : Int)
  /-- `configure(mode)` sent to the controller (R111). -/
  | bcConfigure (mode : Byte)
  /-- `reset()` sent to the controller (R112). -/
  | bcReset
  /-- `start_write(address)` (R113). -/
  | bcStartWrite (address : Address)
  /-- `start_read(address)` (R114). -/
  | bcStartRead (address : Address)
  /-- `ack()` (R115). -/
  | bcAck
  /-- `mark_last_byte()` (R116). -/
  | bcMarkLast
  /-- `status()` (R117). -/
  | bcStatus
  /-- `read_data_byte()` (R118). -/
  | bcReadData
  /-- `write_data_byte(b)` (R119). -/
  | bcWriteData (b : Byte)
  /-- `BUS_EVENT`, with the status word that accompanies the byte-event (R132, R86). -/
  | busEvent (status : StatusWord)
  /-- Completion with `CPL` = `NOTIFY` (R139, R140). -/
  | cplNotify
  /-- Completion with `CPL` = `DECODE_TEMP` (R139, R172). -/
  | cplDecodeTemp
  /-- Completion with `CPL` = `DECODE_THYST` (R139, R173). -/
  | cplDecodeThyst
  /-- Completion with `CPL` = `DECODE_TOS` (R139, R174). -/
  | cplDecodeTos
  /-- Completion with `CPL` = `CHAIN` (R139, R141). -/
  | cplChain
  /-- Completion with `CPL.set` = 0; the three id bits are ignored but kept (R139, R87). -/
  | cplNone (id : BitVec 3)
  /-- `DELAY_DONE`, which has no encoding (R168). -/
  | delayDone
  deriving DecidableEq, Repr

/-- The row of the opcode table a continuation stands for (R87). -/
def Continuation.instr : Continuation → Instr
  | .notify => .cplNotify
  | .decodeTemp => .cplDecodeTemp
  | .decodeThyst => .cplDecodeThyst
  | .decodeTos => .cplDecodeTos
  | .chain => .cplChain

/-- A word at the interface it belongs to (R80); the interface, not the word, tells the format. -/
inductive PortWord where
  /-- Format H: written to `CMD`. -/
  | host (w : HostWord)
  /-- Format B: at the Bus Controller's command port. -/
  | bus (w : BusWord)
  /-- Format E: the status word that accompanies a byte-event. -/
  | event (w : BitVec 2)
  /-- Format C: the continuation field `CPL`. -/
  | completion (w : BitVec 4)
  /-- The end of the inter-frame delay, which carries no bits. -/
  | delay
  deriving DecidableEq, Repr

end Sys2Proof
end

