-- ==== Sys2Proof/WellFormed.lean ====
section
/-!
DEFINITION. Which instructions have an encoding. Every operand but one has the exact width the spec gives it; the limit of
`WRITE_LIMIT` is a number, and must fit the signed 16-bit immediate (spec 30_encoding.md R90, R93).
-/

namespace Sys2Proof

/-- `v` is a signed 16-bit value (R93: "v in -32768..32767"). -/
def limitInRange (v : Int) : Bool :=
  decide (-32768 ≤ v) && decide (v ≤ 32767)

/-- The instruction's operands fit their fields. -/
def Instr.wellFormed : Instr → Bool
  | .writeLimit _ v => limitInRange v
  | .configure _ | .start | .powerUp | .powerDown | .startConv | .readMeas | .readLimit _ => true
  | .bcConfigure _ | .bcReset | .bcStartWrite _ | .bcStartRead _ | .bcAck | .bcMarkLast => true
  | .bcStatus | .bcReadData | .bcWriteData _ | .busEvent _ => true
  | .cplNotify | .cplDecodeTemp | .cplDecodeThyst | .cplDecodeTos | .cplChain | .cplNone _ | .delayDone => true

end Sys2Proof
end

