-- ==== Sys2Proof/Decode.lean ====
section
/-!
DEFINITION. Decoding and encoding of the four formats (spec 30_encoding.md R80 to R92): total, rejecting by name. Every word has
one length and one meaning (R92), and the port it stands at tells its format (log 11).
-/

namespace Sys2Proof

/-- Why a word has no meaning (R91, R84, R87). -/
inductive DecodeError where
  /-- Format H: `op` is none of the eight codes of R82. -/
  | unassignedOp
  /-- Format H: a must-be-zero bit of 23:17 is set. -/
  | nonzeroZ
  /-- Format H: `which` is set on an operation that has none. -/
  | nonzeroWhich
  /-- Format H: an unused bit of `imm` is set. -/
  | nonzeroImm
  /-- Format B: `code` is none of the nine of R84. -/
  | unassignedCode
  /-- Format B: an unused bit of `arg` is set. -/
  | nonzeroArg
  /-- Format C: `set` = 1 with a reserved id (5 to 7). -/
  | reservedContinuation
  deriving DecidableEq, Repr

/-- `op` of a host command word (R81). -/
def hostOpcode (w : HostWord) : Byte := w.extractLsb' 24 8

/-- `z` of a host command word (R81). -/
def hostZ (w : HostWord) : BitVec 7 := w.extractLsb' 17 7

/-- `which` of a host command word (R81). -/
def hostWhich (w : HostWord) : BitVec 1 := w.extractLsb' 16 1

/-- `imm` of a host command word (R81). -/
def hostImm (w : HostWord) : Half := w.extractLsb' 0 16

/-- The limit selector of R81: 0 hysteresis, 1 overset. -/
def Limit.ofBit (b : BitVec 1) : Limit := if b = 0#1 then .hysteresis else .overset

/-- The selector's bit (R81). -/
def Limit.bit : Limit → BitVec 1
  | .hysteresis => 0#1
  | .overset => 1#1

/-- An operation whose `which` and `imm` must be 0 (R81, R91). -/
def plainHost (w : HostWord) (i : Instr) : Except DecodeError Instr :=
  if hostWhich w ≠ 0#1 then .error .nonzeroWhich
  else if hostImm w ≠ 0#16 then .error .nonzeroImm
  else .ok i

/-- Format H (R81, R82, R91). -/
def decodeHost (w : HostWord) : Except DecodeError Instr :=
  if hostZ w ≠ 0#7 then .error .nonzeroZ
  else if hostOpcode w = 0x01#8 then
    if hostWhich w ≠ 0#1 then .error .nonzeroWhich
    else if (hostImm w).extractLsb' 8 8 ≠ 0#8 then .error .nonzeroImm
    else .ok (.configure ((hostImm w).extractLsb' 0 8))
  else if hostOpcode w = 0x02#8 then plainHost w .start
  else if hostOpcode w = 0x10#8 then plainHost w .powerUp
  else if hostOpcode w = 0x11#8 then plainHost w .powerDown
  else if hostOpcode w = 0x12#8 then plainHost w .startConv
  else if hostOpcode w = 0x13#8 then plainHost w .readMeas
  else if hostOpcode w = 0x14#8 then
    if hostImm w ≠ 0#16 then .error .nonzeroImm
    else .ok (.readLimit (Limit.ofBit (hostWhich w)))
  else if hostOpcode w = 0x15#8 then .ok (.writeLimit (Limit.ofBit (hostWhich w)) (hostImm w).toInt)
  else .error .unassignedOp

/-- A command whose `arg` must be 0 (R83, R84). -/
def plainBus (arg : Byte) (i : Instr) : Except DecodeError Instr :=
  if arg ≠ 0#8 then .error .nonzeroArg else .ok i

/-- A command whose `arg` is a 7-bit target address, bit 7 = 0 (R83). -/
def addressedBus (arg : Byte) (f : Address → Instr) : Except DecodeError Instr :=
  if arg.getLsbD 7 then .error .nonzeroArg else .ok (f (arg.extractLsb' 0 7))

/-- Format B (R83, R84). -/
def decodeBus (w : BusWord) : Except DecodeError Instr :=
  let arg : Byte := w.extractLsb' 0 8
  let code : BitVec 4 := w.extractLsb' 8 4
  if code = 0x1#4 then .ok (.bcConfigure arg)
  else if code = 0x2#4 then plainBus arg .bcReset
  else if code = 0x3#4 then addressedBus arg .bcStartWrite
  else if code = 0x4#4 then addressedBus arg .bcStartRead
  else if code = 0x5#4 then plainBus arg .bcAck
  else if code = 0x6#4 then plainBus arg .bcMarkLast
  else if code = 0x7#4 then plainBus arg .bcStatus
  else if code = 0x8#4 then plainBus arg .bcReadData
  else if code = 0x9#4 then .ok (.bcWriteData arg)
  else .error .unassignedCode

/-- The status word of R86: bit 0 `phase`, bit 1 `buffer_full`; all four values have a meaning. -/
def StatusWord.ofBits (w : BitVec 2) : StatusWord :=
  { phase := if w.getLsbD 0 then .read else .write
    bufferFull := w.getLsbD 1 }

/-- The two bits of a status word (R86). -/
def StatusWord.bits (s : StatusWord) : BitVec 2 :=
  BitVec.ofBool s.bufferFull ++ (match s.phase with | .write => 0#1 | .read => 1#1)

/-- `CPL.set`, bit 3 of the continuation field (R87). -/
def cplSet (c : BitVec 4) : Bool := c.getLsbD 3

/-- `CPL.id`, bits 2:0 of the continuation field (R87). -/
def cplId (c : BitVec 4) : BitVec 3 := c.extractLsb' 0 3

/-- `CPL` with `set` cleared and `id` kept (R139: `CPL.set <- 0`). -/
def cplCleared (c : BitVec 4) : BitVec 4 := 0#1 ++ cplId c

/-- Which continuation a `CPL` value registers, if any (R87). -/
def continuationOf (c : BitVec 4) : Except DecodeError (Option Continuation) :=
  if cplSet c = false then .ok none
  else if cplId c = 0#3 then .ok (some .notify)
  else if cplId c = 1#3 then .ok (some .decodeTemp)
  else if cplId c = 2#3 then .ok (some .decodeThyst)
  else if cplId c = 3#3 then .ok (some .decodeTos)
  else if cplId c = 4#3 then .ok (some .chain)
  else .error .reservedContinuation

/-- A continuation's `id` (R87). -/
def Continuation.id : Continuation → BitVec 3
  | .notify => 0#3
  | .decodeTemp => 1#3
  | .decodeThyst => 2#3
  | .decodeTos => 3#3
  | .chain => 4#3

/-- Format C (R87). -/
def decodeCompletion (c : BitVec 4) : Except DecodeError Instr :=
  match continuationOf c with
  | .ok none => .ok (.cplNone (cplId c))
  | .ok (some k) => .ok k.instr
  | .error e => .error e

/-- The instruction a word stands for at its port, or the named reason why there is none. -/
def decode : PortWord → Except DecodeError Instr
  | .host w => decodeHost w
  | .bus w => decodeBus w
  | .event w => .ok (.busEvent (StatusWord.ofBits w))
  | .completion w => decodeCompletion w
  | .delay => .ok .delayDone

/-- A host command word from its fields, `z` = 0 (R81). -/
def hostWord (op : Byte) (which : BitVec 1) (imm : Half) : HostWord := op ++ 0#7 ++ which ++ imm

/-- A Bus Controller command word from its fields (R83). -/
def busWord (code : BitVec 4) (arg : Byte) : BusWord := code ++ arg

/-- `arg` of a command that carries a target address: bit 7 = 0, the address unshifted in 6:0 (R83, R90). -/
def addressArg (a : Address) : Byte := 0#1 ++ a

/-- A registered continuation's field: `set` = 1 (R87). -/
def cplWord (k : Continuation) : BitVec 4 := 1#1 ++ k.id

/-- The word that stands for an instruction, and its port (R82, R84, R86, R87, R93). -/
def encode : Instr → PortWord
  | .configure mode => .host (hostWord 0x01#8 0#1 (0#8 ++ mode))
  | .start => .host (hostWord 0x02#8 0#1 0#16)
  | .powerUp => .host (hostWord 0x10#8 0#1 0#16)
  | .powerDown => .host (hostWord 0x11#8 0#1 0#16)
  | .startConv => .host (hostWord 0x12#8 0#1 0#16)
  | .readMeas => .host (hostWord 0x13#8 0#1 0#16)
  | .readLimit which => .host (hostWord 0x14#8 which.bit 0#16)
  | .writeLimit which v => .host (hostWord 0x15#8 which.bit (BitVec.ofInt 16 v))
  | .bcConfigure mode => .bus (busWord 0x1#4 mode)
  | .bcReset => .bus (busWord 0x2#4 0#8)
  | .bcStartWrite a => .bus (busWord 0x3#4 (addressArg a))
  | .bcStartRead a => .bus (busWord 0x4#4 (addressArg a))
  | .bcAck => .bus (busWord 0x5#4 0#8)
  | .bcMarkLast => .bus (busWord 0x6#4 0#8)
  | .bcStatus => .bus (busWord 0x7#4 0#8)
  | .bcReadData => .bus (busWord 0x8#4 0#8)
  | .bcWriteData b => .bus (busWord 0x9#4 b)
  | .busEvent s => .event s.bits
  | .cplNotify => .completion (cplWord .notify)
  | .cplDecodeTemp => .completion (cplWord .decodeTemp)
  | .cplDecodeThyst => .completion (cplWord .decodeThyst)
  | .cplDecodeTos => .completion (cplWord .decodeTos)
  | .cplChain => .completion (cplWord .chain)
  | .cplNone id => .completion (0#1 ++ id)
  | .delayDone => .delay

/-- The rows of the host command table (R82), as `(match, mask)`. -/
def hostRows : List (HostWord × HostWord) :=
  [(0x01000000#32, 0xFFFFFF00#32), (0x02000000#32, 0xFFFFFFFF#32), (0x10000000#32, 0xFFFFFFFF#32),
   (0x11000000#32, 0xFFFFFFFF#32), (0x12000000#32, 0xFFFFFFFF#32), (0x13000000#32, 0xFFFFFFFF#32),
   (0x14000000#32, 0xFFFEFFFF#32), (0x15000000#32, 0xFFFE0000#32)]

/-- The rows of the Bus Controller command table (R84), as `(match, mask)`. -/
def busRows : List (BusWord × BusWord) :=
  [(0x100#12, 0xF00#12), (0x200#12, 0xFFF#12), (0x300#12, 0xF80#12), (0x400#12, 0xF80#12), (0x500#12, 0xFFF#12),
   (0x600#12, 0xFFF#12), (0x700#12, 0xFFF#12), (0x800#12, 0xFFF#12), (0x900#12, 0xF00#12)]

/-- The word at its port that `nbits` bits `w` of the opcode table stand for. The table's widths 32, 12, 4, 2 and 0 tell the
format; in whole bytes 12 is 16 and 4 is 8 (log 11). `none` where a bit above the format's width is set. -/
def tableWord (nbits w : Nat) : Option PortWord :=
  if nbits = 0 then (if w = 0 then some .delay else none)
  else if nbits ≤ 2 then (if w < 4 then some (.event (BitVec.ofNat 2 w)) else none)
  else if nbits ≤ 8 then (if w < 16 then some (.completion (BitVec.ofNat 4 w)) else none)
  else if nbits ≤ 16 then (if w < 4096 then some (.bus (BitVec.ofNat 12 w)) else none)
  else if nbits ≤ 32 then (if w < 4294967296 then some (.host (BitVec.ofNat 32 w)) else none)
  else none

/-- What the decoder reads from an opcode-table word. -/
def decodeTableWord (nbits w : Nat) : Option Instr :=
  match tableWord nbits w with
  | some p =>
    match decode p with
    | .ok i => some i
    | .error _ => none
  | none => none

end Sys2Proof
end

