-- ==== Sys2Proof/Config.lean ====
section
/-!
DEFINITION. What an implementation fixes (spec 00_scope.md R6, the OPEN parameters) and the free values. Every constant here is
opaque: no proof can see a value, so a claim holds for all of them (R6, D18; log 13, log 5, log 14).
-/

namespace Sys2Proof

/-- The sensor's fixed 7-bit device address, OPEN (R6, D18). -/
opaque Config.devAddr : Address

/-- Pointer byte of the configuration register, OPEN (R6, D18). -/
opaque Config.ptrConfig : Byte

/-- Pointer byte of the conversion-trigger register, OPEN (R6, D18). -/
opaque Config.ptrOneshot : Byte

/-- Pointer byte of the data (temperature) register, OPEN (R6, D18). -/
opaque Config.ptrTemp : Byte

/-- Pointer byte of the hysteresis limit register, OPEN (R6, D18). -/
opaque Config.ptrThyst : Byte

/-- Pointer byte of the overset limit register, OPEN (R6, D18). -/
opaque Config.ptrTos : Byte

/-- Configuration byte selecting power-down, OPEN (R6, D18). -/
opaque Config.cfgPowerDown : Byte

/-- Configuration byte selecting power-up/one-shot mode, OPEN (R6, D18). -/
opaque Config.cfgPowerUp : Byte

/-- The inter-frame delay `T_IF`, OPEN, a duration the untimed model cannot see (R6, R168, R234, D19). -/
opaque Config.interFrameDelay : Nat

/-- Whether the controller's `reset()` keeps what `configure` set, OPEN; no rule of the block depends on it (R6, D24). -/
opaque Config.bcResetKeepsConfig : Bool

/-- The `n`-th `status()` answer that no input supplies: any of the four words (R117, U10; log 5). -/
opaque Config.freeStatus : Nat → BitVec 2

/-- The `n`-th `read_data_byte()` answer that no input supplies: any byte (R118, U9; log 5). -/
opaque Config.freeData : Nat → Byte

/-- The delay counter `DLY`, whose width and count no source gives (R29, R203; log 14). -/
opaque Config.freeDelayCount : Nat → Nat

end Sys2Proof
end

