-- ==== Sys2Proof/Machine/State.lean ====
section
/-!
DEFINITION. The state of ETS-I2CM as plain data (spec 10_state.md), the inputs it has not taken yet, the ways a step can stop, and
the state after reset (R38, R220).
-/

namespace Sys2Proof.Machine

/-- `PHASE` (R21). -/
inductive Phase where
  | idle
  | writing
  | reading
  /-- The continuation is running; seen only inside one handler step (R139). -/
  | complete
  deriving DecidableEq, Repr

/-- `SEQ`, the foreground sequencer (R29): ready, or in the inter-frame delay before one of the three reads. -/
inductive Sequencer where
  | ready
  | delayTemp
  | delayHyst
  | delayOs
  deriving DecidableEq, Repr

/-- A descriptor record (R11). -/
structure Descriptor where
  taddr : Address
  wptr : Byte
  wcnt : Byte
  rptr : Byte
  rcnt : Byte
  cpl : BitVec 4
  deriving DecidableEq, Repr

/-- What a Bus Controller command gives back (R85). -/
inductive Answer where
  | none
  | status (w : BitVec 2)
  | byte (b : Byte)
  deriving DecidableEq, Repr

/-- One entry of `BCTRACE`: a format B word, with its answer if it is a query (R121). -/
structure BusEntry where
  word : BusWord
  answer : Answer
  deriving DecidableEq, Repr

/-- A buffer memory of 256 bytes (R61, R62): the bytes that have a value, by index. An index that is not listed has no value
(R38, U13; log 2). -/
abbrev Memory := List Host.Cell

/-- The canonical form: indices strictly rising, none above 255. -/
def Memory.wf : Memory → Bool
  | [] => true
  | (a, _) :: m => decide (a < 256) && m.all (fun c => decide (a < c.1)) && Memory.wf m

/-- A host access, one foreground step each (R33, R93, R94). -/
inductive HostOp where
  /-- `wr`: write a register by number; number 0 is `CMD`. -/
  | write (n : Nat) (v : HostWord)
  /-- `rd`: read a register by number. -/
  | read (n : Nat)
  /-- `wrtx`. -/
  | writeTx (a b : Byte)
  /-- `rdtx`. -/
  | readTx (a : Byte)
  /-- `wrrx`. -/
  | writeRx (a b : Byte)
  /-- `rdrx`. -/
  | readRx (a : Byte)
  /-- `wait_idle`: reads of `STAT`, one a step, repeated until one shows `Idle` and `Ready` (R94; log 24). -/
  | waitIdle
  deriving DecidableEq, Repr

/-- One thing the outside does to the block, or the foreground does next (R5; log 4). -/
inductive Stimulus where
  /-- The foreground makes a host access. -/
  | host (op : HostOp)
  /-- The inter-frame delay ends (R168). -/
  | delayDone
  /-- The controller raises its byte-event (R120) and will answer `status` and, if asked, `data` (`none`: any byte). If `early`, it
  does so before the handler step for an event already pending has begun, so that the two merge (R197; log 18). -/
  | byteEvent (early : Bool) (status : BitVec 2) (data : Option Byte)
  /-- The reset input is asserted (R220). -/
  | reset
  /-- One word at the Bus Controller's command port on its own (log 9). -/
  | busCommand (w : BusWord)
  deriving DecidableEq, Repr

/-- What the host port gives back for a read (D1: registers are 32 bits, buffers are bytes). -/
inductive HostData where
  | register (v : HostWord)
  | byte (b : Byte)
  deriving DecidableEq, Repr

/-- The machine. Names and widths are those of 10_state.md; the last six fields are the model's own (INVENTORY.md). -/
structure State where
  /-- `TADDR`, live target address (R20). -/
  taddr : Address
  /-- `WPTR`, index of the next byte to send (R20, R22). -/
  wptr : Byte
  /-- `WREM`, bytes still to send (R20, R22). -/
  wrem : Byte
  /-- `RPTR`, where the next received byte goes (R20, R22). -/
  rptr : Byte
  /-- `RREM`, bytes still to receive (R20, R22). -/
  rrem : Byte
  /-- `CPL`, live continuation field (R24, R87). -/
  cpl : BitVec 4
  /-- `PHASE` (R21). -/
  phase : Phase
  /-- `TAIL`, the sentinel: armed or spent (R23). -/
  tail : Bool
  /-- `S_TADDR` (R25). -/
  sTaddr : Address
  /-- `S_WPTR` (R25). -/
  sWptr : Byte
  /-- `S_WCNT` (R25). -/
  sWcnt : Byte
  /-- `S_RPTR` (R25). -/
  sRptr : Byte
  /-- `S_RCNT` (R25). -/
  sRcnt : Byte
  /-- `S_CPL` (R25). -/
  sCpl : BitVec 4
  /-- `SEQ` (R29). -/
  seq : Sequencer
  /-- `DLY`, the delay counter; nothing reads it (R29, R203; log 14). -/
  dly : Nat
  /-- `RES_TEMP`, signed (R30). -/
  resTemp : BitVec 32
  /-- `RES_THYST`, signed (R30). -/
  resThyst : Half
  /-- `RES_TOS`, signed (R30). -/
  resTos : Half
  /-- `ERR_BUSY_START`, sticky (R31, R192). -/
  errBusyStart : Bool
  /-- `ERR_BAD_DESC`, sticky (R31, R193). -/
  errBadDesc : Bool
  /-- `ERR_ILL_CMD`, sticky (R31, R194). -/
  errIllCmd : Bool
  /-- `EVPEND`, a byte-event is raised and not handled (R32, R197). -/
  evPend : Bool
  /-- `BCTRACE`, every command sent since reset, oldest first (R32, R121). -/
  bcTrace : List BusEntry
  /-- `TXBUF` (R61). -/
  txbuf : Memory
  /-- `RXBUF` (R62). -/
  rxbuf : Memory
  /-- The outputs `cpl_pulse` and `cpl_id` in this step (R140, R201). -/
  cplPulse : Option (BitVec 3)
  /-- What the host port gives back in this step (log 16). -/
  hostOut : Option HostData
  /-- The descriptor last accepted, which gives the ownership window of R68 (log 15). -/
  own : Descriptor
  /-- Inputs not yet taken, oldest first (log 4). -/
  stim : List Stimulus
  /-- The answer `status()` will give, if an input fixed it (R117; log 5). -/
  ansStatus : Option (BitVec 2)
  /-- The answer `read_data_byte()` will give, if an input fixed it (R118; log 5). -/
  ansData : Option Byte
  /-- How many free values have been drawn (log 5). -/
  draws : Nat
  /-- The model's own: what was sent to the controller before the block's last hardware reset, oldest first. That reset does not reach
  the controller (R38, R221; log 27). -/
  bcPast : List BusEntry
  deriving DecidableEq, Repr

/-- Where a step stops because it would read a byte that has no value (U13; log 2). -/
inductive Fault where
  /-- Raised by branch W1 and by a host read: the `TXBUF` byte at this index was never written. Safe: hardware would go on with
  some byte. -/
  | unwrittenTx (a : Nat)
  /-- Raised by the decode continuations and by a host read: the `RXBUF` byte at this index was never written. Safe. -/
  | unwrittenRx (a : Nat)
  deriving DecidableEq, Repr

/-- Where the model gives a run no meaning. -/
inductive Refusal where
  /-- Raised by an arm of `exec` whose instruction has no meaning yet. Safe. -/
  | notModelled (mnemonic : String)
  /-- Raised by the host commands run while `SEQ` is not `Ready`, when the host port takes nothing (R35, D29). Never by `step`,
  which leaves the access waiting. Safe (log 8). -/
  | hostPortBlocked
  /-- Raised by `BUS_EVENT` run with `EVPEND` = 0, against its precondition (R132). Never by `step`. Safe (log 8). -/
  | noEventPending
  /-- Raised by `DELAY_DONE` run with `SEQ` = `Ready`, against its precondition (R168). Never by `step`. Safe (log 8). -/
  | noDelayRunning
  /-- Raised by a completion run while `PHASE` is not `Complete` (R139). Never by `step`. Safe (log 8). -/
  | notCompleting
  /-- Raised by a completion whose live `CPL` has a reserved id, which `EngineStart` never admits (R87, R193). Safe (log 19). -/
  | reservedContinuation (id : BitVec 3)
  /-- Raised by a word at the controller's command port that is none of the nine commands (R83, R84). Safe (log 25). -/
  | notABusCommand (w : BusWord)
  /-- Raised by a foreground write of a `TXBUF` byte the engine owns (R68, U4). Safe. -/
  | ownedTx (a : Byte)
  /-- Raised by a foreground read or write of an `RXBUF` byte the engine owns (R68, U4). Safe. -/
  | ownedRx (a : Byte)
  deriving DecidableEq, Repr

/-- A descriptor of zeros: what `own` holds before the first start. -/
def Descriptor.zero : Descriptor := { taddr := 0#7, wptr := 0#8, wcnt := 0#8, rptr := 0#8, rcnt := 0#8, cpl := 0#4 }

/-- The machine right after reset (R38, R220). DESIGN CHOICE: what R38 leaves unspecified is 0 in a register (log 1) and without
a value in a buffer (log 2), and the controller was told nothing before (log 27). -/
def State.reset : State where
  taddr := 0#7
  wptr := 0#8
  wrem := 0#8
  rptr := 0#8
  rrem := 0#8
  cpl := 0#4
  phase := .idle
  tail := false
  sTaddr := 0#7
  sWptr := 0#8
  sWcnt := 0#8
  sRptr := 0#8
  sRcnt := 0#8
  sCpl := 0#4
  seq := .ready
  dly := 0
  resTemp := 0#32
  resThyst := 0#16
  resTos := 0#16
  errBusyStart := false
  errBadDesc := false
  errIllCmd := false
  evPend := false
  bcTrace := []
  txbuf := []
  rxbuf := []
  cplPulse := none
  hostOut := none
  own := Descriptor.zero
  stim := []
  ansStatus := none
  ansData := none
  draws := 0
  bcPast := []

end Sys2Proof.Machine
end

