-- ==== Sys2Proof/Machine/Operands.lean ====
section
/-!
DEFINITION. Operand forms (spec 30_encoding.md R90, R89): the staged descriptor, the limit selector, the limit encoding, the
12-bit decode and the temperature scaling (42_sensor_protocol.md R170, R171, R172), and the small state encodings (R88).
-/

namespace Sys2Proof.Machine

/-- The operand of `START` and `CHAIN`: the staged registers (R90, R131). -/
def State.staged (s : State) : Descriptor :=
  { taddr := s.sTaddr, wptr := s.sWptr, wcnt := s.sWcnt, rptr := s.sRptr, rcnt := s.sRcnt, cpl := s.sCpl }

/-- The pointer byte of a limit register (R166, R167). -/
def limitPointer : Limit → Byte
  | .hysteresis => Config.ptrThyst
  | .overset => Config.ptrTos

/-- The delay state `READ_LIMIT` enters (R166). -/
def limitDelay : Limit → Sequencer
  | .hysteresis => .delayHyst
  | .overset => .delayOs

/-- The continuation field of the read that ends a delay (R168). -/
def delayCpl : Sequencer → BitVec 4
  | .delayTemp => 0b1001#4
  | .delayHyst => 0b1010#4
  | .ready => 0b1011#4
  | .delayOs => 0b1011#4

/-- `EncodeLimit` (R170): the limit shifted left by 4 in 16 bits, most significant byte first. -/
def encodeLimit (v : Int) : Byte × Byte :=
  let w : Half := BitVec.ofInt 16 v <<< 4
  (w.extractLsb' 8 8, w.extractLsb' 0 8)

/-- `Decode12` (R171). -/
def decode12 (b0 b1 : Byte) : Half :=
  let u : Half := (b0.setWidth 16 <<< 4) + (b1.extractLsb' 4 4).setWidth 16
  if b0.getLsbD 7 then u - 4096#16 else u

/-- Step 4 for temperature (R172): times 10000, divided by 16 toward zero, in 32-bit signed arithmetic. -/
def scaleTemp (t : Half) : BitVec 32 :=
  (t.signExtend 32 * 10000#32).sdiv 16#32

/-- `PHASE` as software sees it (R21, R88). -/
def Phase.code : Phase → BitVec 2
  | .idle => 0#2
  | .writing => 1#2
  | .reading => 2#2
  | .complete => 3#2

/-- `SEQ` as software sees it (R29, R88). -/
def Sequencer.code : Sequencer → BitVec 2
  | .ready => 0#2
  | .delayTemp => 1#2
  | .delayHyst => 2#2
  | .delayOs => 3#2

end Sys2Proof.Machine
end

