-- ==== Sys2Proof/Machine/Flags.lean ====
section
/-!
DEFINITION. The flags of ETS-I2CM (spec 10_state.md R31, R34, R37): when each error flag is set, the status word the host reads,
and the conditions that refuse a start (41_transaction_engine.md R130, 60_exceptions.md R191 to R194).
-/

namespace Sys2Proof.Machine

/-- A transaction is live: `PHASE` is `Writing` or `Reading` (R34). -/
def Phase.live : Phase → Bool
  | .writing | .reading => true
  | .idle | .complete => false

/-- `flag ERR_BUSY_START` (R10, R192). -/
def State.flagBusyStart (s : State) : State := { s with errBusyStart := true }

/-- `flag ERR_BAD_DESC` (R10, R193). -/
def State.flagBadDesc (s : State) : State := { s with errBadDesc := true }

/-- `flag ERR_ILL_CMD` (R10, R194). -/
def State.flagIllCmd (s : State) : State := { s with errIllCmd := true }

/-- A nonzero count whose range leaves the 256-byte memory (R130, R193). -/
def rangeBad (ptr cnt : Byte) : Bool :=
  decide (0 < cnt.toNat) && decide (256 < ptr.toNat + cnt.toNat)

/-- A registered continuation with a reserved id (R130, R87). -/
def cplBad (c : BitVec 4) : Bool := cplSet c && decide (5 ≤ (cplId c).toNat)

/-- `BadDesc(d)` (R130). -/
def badDesc (d : Descriptor) : Bool :=
  (decide (d.wcnt = 0#8) && decide (d.rcnt = 0#8)) || rangeBad d.wptr d.wcnt || rangeBad d.rptr d.rcnt || cplBad d.cpl

/-- `STAT` (R34): bits 1:0 `PHASE`, 2 `TAIL`, 3 `CPLSET`, 5:4 `SEQ`, 6 `EVPEND`, 8, 9, 10 the error flags, the rest 0. -/
def State.stat (s : State) : HostWord :=
  0#21 ++ BitVec.ofBool s.errIllCmd ++ BitVec.ofBool s.errBadDesc ++ BitVec.ofBool s.errBusyStart ++ 0#1
    ++ BitVec.ofBool s.evPend ++ s.seq.code ++ BitVec.ofBool (cplSet s.cpl) ++ BitVec.ofBool s.tail ++ s.phase.code

end Sys2Proof.Machine
end

