-- ==== Sys2Proof/Machine/Ops.lean ====
section
/-!
DEFINITION. The shared operations: buffer memory (spec 20_memory.md R61, R62, R68), commands and queries at the Bus Controller's
port (40_bus_controller_interface.md), `EngineStart` and `Complete` (41_transaction_engine.md R130, R139), `ProtoStart` (R160), and
the entry of the one interrupt, the byte-event (60_exceptions.md R199).
-/

namespace Sys2Proof.Machine

/-- The byte at an index, if it has a value. -/
def Memory.read (a : Nat) : Memory → Option Byte
  | [] => none
  | (k, b) :: m => if k = a then some b else Memory.read a m

/-- Write one byte, keeping the canonical form. -/
def Memory.write (a : Nat) (b : Byte) : Memory → Memory
  | [] => [(a, b)]
  | (k, c) :: m =>
    if a < k then (a, b) :: (k, c) :: m
    else if a = k then (a, b) :: m
    else (k, c) :: Memory.write a b m

/-- Write bytes at ascending indices from `a`, modulo 256 (R64). -/
def Memory.writeFrom (a : Byte) : List Byte → Memory → Memory
  | [], m => m
  | b :: bs, m => Memory.writeFrom (a + 1#8) bs (Memory.write a.toNat b m)

/-- Index `a` lies in the range of `cnt` bytes from `ptr` (R68). -/
def inRange (ptr cnt a : Byte) : Bool :=
  decide (ptr.toNat ≤ a.toNat) && decide (a.toNat < ptr.toNat + cnt.toNat)

/-- The engine owns this `TXBUF` byte (R68). -/
def State.ownsTx (s : State) (a : Byte) : Bool := s.phase.live && inRange s.own.wptr s.own.wcnt a

/-- The engine owns this `RXBUF` byte (R68). -/
def State.ownsRx (s : State) (a : Byte) : Bool := s.phase.live && inRange s.own.rptr s.own.rcnt a

/-- Everything the controller was told, across the block's hardware resets, which do not reach it (R38, R221; log 27). -/
def State.bcTold (s : State) : List BusEntry := s.bcPast ++ s.bcTrace

/-- Append an entry to `BCTRACE` (R9, R121). -/
def State.log (s : State) (e : BusEntry) : State := { s with bcTrace := s.bcTrace ++ [e] }

/-- `bc.configure(m)` (R111). -/
def State.sendConfigure (s : State) (m : Byte) : State := s.log ⟨busWord 0x1#4 m, .none⟩

/-- `bc.reset()` (R112). -/
def State.sendReset (s : State) : State := s.log ⟨busWord 0x2#4 0#8, .none⟩

/-- `bc.start_write(a)` (R113). -/
def State.sendStartWrite (s : State) (a : Address) : State := s.log ⟨busWord 0x3#4 (addressArg a), .none⟩

/-- `bc.start_read(a)` (R114). -/
def State.sendStartRead (s : State) (a : Address) : State := s.log ⟨busWord 0x4#4 (addressArg a), .none⟩

/-- `bc.ack()` (R115). -/
def State.sendAck (s : State) : State := s.log ⟨busWord 0x5#4 0#8, .none⟩

/-- `bc.mark_last_byte()` (R116). -/
def State.sendMarkLast (s : State) : State := s.log ⟨busWord 0x6#4 0#8, .none⟩

/-- `bc.status()` answered by `w` (R117). -/
def State.sendStatus (s : State) (w : BitVec 2) : State := s.log ⟨busWord 0x7#4 0#8, .status w⟩

/-- `bc.read_data_byte()` answered by `b` (R118). -/
def State.sendReadData (s : State) (b : Byte) : State := s.log ⟨busWord 0x8#4 0#8, .byte b⟩

/-- `bc.write_data_byte(b)` (R119). -/
def State.sendWriteData (s : State) (b : Byte) : State := s.log ⟨busWord 0x9#4 b, .none⟩

/-- The environment's next `status()` answer: the one its input fixed, else a fresh free value (R117, U10; log 5). -/
def State.statusAnswer (s : State) : BitVec 2 := s.ansStatus.getD (Config.freeStatus s.draws)

/-- That answer is used up. -/
def State.tookStatus (s : State) : State :=
  { s with ansStatus := none, draws := if s.ansStatus.isSome then s.draws else s.draws + 1 }

/-- The environment's next `read_data_byte()` answer (R118, U9; log 5). -/
def State.dataAnswer (s : State) : Byte := s.ansData.getD (Config.freeData s.draws)

/-- That answer is used up. -/
def State.tookData (s : State) : State :=
  { s with ansData := none, draws := if s.ansData.isSome then s.draws else s.draws + 1 }

/-- `b <- bc.read_data_byte()`: the answer and the state after it (R9, R118). -/
def State.readData (s : State) : Byte × State := (s.dataAnswer, s.tookData.sendReadData s.dataAnswer)

/-- Load the live descriptor and arm `TAIL` (R130); the ownership window becomes this descriptor's (R68). -/
def State.loaded (s : State) (d : Descriptor) : State :=
  { s with
    taddr := d.taddr
    wptr := d.wptr
    wrem := d.wcnt
    rptr := d.rptr
    rrem := d.rcnt
    cpl := d.cpl
    tail := true
    own := d }

/-- `EngineStart(d)` once admitted: reset, store, start (R130). -/
def State.accept (s : State) (d : Descriptor) : State :=
  if 0 < d.wcnt.toNat then { s.sendReset.loaded d with phase := .writing }.sendStartWrite d.taddr
  else { s.sendReset.loaded d with phase := .reading }.sendStartRead d.taddr

/-- The result of a start (R130). -/
inductive StartResult where
  | accepted
  | refused
  deriving DecidableEq, Repr

/-- `EngineStart(d)` (R130): the busy check first (R198(c)), then the descriptor's. -/
def engineStart (d : Descriptor) (s : State) : StartResult × State :=
  if s.phase.live then (.refused, s.flagBusyStart)
  else if badDesc d then (.refused, s.flagBadDesc)
  else (.accepted, s.accept d)

/-- The descriptor `ProtoStart` builds (R160). -/
def protoDescriptor (len : Nat) (rcnt : Byte) (cpl : BitVec 4) : Descriptor :=
  { taddr := Config.devAddr, wptr := 0#8, wcnt := BitVec.ofNat 8 len, rptr := 0#8, rcnt := rcnt, cpl := cpl }

/-- `ProtoStart(bytes, rcnt, cpl)` (R160): the busy check comes before `TXBUF` is touched. -/
def protoStart (bytes : List Byte) (rcnt : Byte) (cpl : BitVec 4) (s : State) : StartResult × State :=
  if s.phase.live then (.refused, s.flagBusyStart)
  else engineStart (protoDescriptor bytes.length rcnt cpl) { s with txbuf := Memory.writeFrom 0#8 bytes s.txbuf }

/-- The pointer write was accepted: enter the delay; `DLY` takes a free value (R165, R166, R29; log 14). -/
def State.startDelay (s : State) (q : Sequencer) : State :=
  { s with seq := q, dly := Config.freeDelayCount s.draws, draws := s.draws + 1 }

/-- The delay is over: `SEQ <- Ready`; `DLY` takes a free value (R168, R29; log 14). -/
def State.endDelay (s : State) : State :=
  { s with seq := .ready, dly := Config.freeDelayCount s.draws, draws := s.draws + 1 }

/-- The first half of a two-transaction read: write the pointer and, if that was accepted, enter the delay (R165, R166). -/
def pointerThenDelay (ptr : Byte) (q : Sequencer) (s : State) : State :=
  match protoStart [ptr] 0#8 0b0000#4 s with
  | (.accepted, t) => t.startDelay q
  | (.refused, t) => t

/-- A host command is a foreground step, which exists only while `SEQ = Ready` (R35, R160, D29; log 8). -/
def foreground (s : State) (t : State) : Host.Outcome State Fault Refusal :=
  if s.seq = .ready then .next t else .refused .hostPortBlocked

/-- Run `k` on the value of `RXBUF[0]`, `RXBUF[1]` as a 12-bit sensor word (R171, R172; log 2). -/
def withDecoded (s : State) (k : Half → State) : Host.Outcome State Fault Refusal :=
  match Memory.read 0 s.rxbuf, Memory.read 1 s.rxbuf with
  | some b0, some b1 => .next (k (decode12 b0 b1))
  | none, _ => .fault (.unwrittenRx 0)
  | some _, none => .fault (.unwrittenRx 1)

/-- Run a continuation (R140, R141, R172, R173, R174). -/
def runContinuation (c : Continuation) (s : State) : Host.Outcome State Fault Refusal :=
  match c with
  | .notify => .next s
  | .decodeTemp => withDecoded s (fun t => { s with resTemp := scaleTemp t })
  | .decodeThyst => withDecoded s (fun t => { s with resThyst := t })
  | .decodeTos => withDecoded s (fun t => { s with resTos := t })
  | .chain => .next (engineStart s.staged s).2

/-- `pulse cpl(k)` (R140, R201). -/
def State.pulse (s : State) (c : Continuation) : State := { s with cplPulse := some c.id }

/-- The retire at the end of `Complete()`, skipped if the continuation started a new transaction (R139, R27). -/
def State.retire (s : State) : State :=
  if s.phase = .complete then { s with phase := .idle, cpl := 0#4, tail := false } else s

/-- `Complete()` for a transaction whose `CPL` registers `k` (R139): the transition first, `CPL.set` cleared before the
continuation runs, the pulse after it, then the retire. -/
def complete (k : Option Continuation) (s : State) : Host.Outcome State Fault Refusal :=
  match k with
  | none => .next ({ s with phase := .complete }).retire
  | some c =>
    match runContinuation c { s with phase := .complete, cpl := cplCleared s.cpl } with
    | .next t => .next (t.pulse c).retire
    | .fault f => .fault f
    | .refused r => .refused r

/-- `Complete()` with the live `CPL` (R139). -/
def completeLive (s : State) : Host.Outcome State Fault Refusal :=
  match continuationOf s.cpl with
  | .ok k => complete k s
  | .error _ => .refused (.reservedContinuation (cplId s.cpl))

/-- A completion run on its own: only while `PHASE` is `Complete` (R139; log 8, log 10). -/
def completing (k : Option Continuation) (s : State) : Host.Outcome State Fault Refusal :=
  if s.phase = .complete then complete k s else .refused .notCompleting

/-- The controller raises its byte-event with these answers (R120): `EVPEND` is one bit deep, a second event merges (R197). -/
def State.raiseEvent (s : State) (status : BitVec 2) (data : Option Byte) : State :=
  { s with evPend := true, ansStatus := some status, ansData := data }

/-- Taking the byte-event (R199, R132): `EVPEND` is cleared and `status()` is sampled once; nothing is saved, no mode or mask
changes, no vector is read. The return has nothing to restore (R200). -/
def State.takeByteEvent (s : State) (w : StatusWord) : State := ({ s with evPend := false }).sendStatus w.bits

end Sys2Proof.Machine
end

