-- ==== Sys2Proof/Machine/BusController.lean ====
section
/-!
DEFINITION. The nine Bus Controller commands (spec 40_bus_controller_interface.md R110 to R119): each is received by the
controller, that is appended to `BCTRACE`; the two queries get the environment's answer. None can fail, block or report an error.
-/

namespace Sys2Proof.Machine

/-- `BC_CONFIGURE` (R111). -/
def execBcConfigure (mode : Byte) (s : State) : Host.Outcome State Fault Refusal := .next (s.sendConfigure mode)

/-- `BC_RESET` (R112). -/
def execBcReset (s : State) : Host.Outcome State Fault Refusal := .next s.sendReset

/-- `BC_START_WRITE` (R113). -/
def execBcStartWrite (a : Address) (s : State) : Host.Outcome State Fault Refusal := .next (s.sendStartWrite a)

/-- `BC_START_READ` (R114). -/
def execBcStartRead (a : Address) (s : State) : Host.Outcome State Fault Refusal := .next (s.sendStartRead a)

/-- `BC_ACK` (R115). -/
def execBcAck (s : State) : Host.Outcome State Fault Refusal := .next s.sendAck

/-- `BC_MARK_LAST` (R116). -/
def execBcMarkLast (s : State) : Host.Outcome State Fault Refusal := .next s.sendMarkLast

/-- `BC_STATUS` (R117, R85): the answer is given in the same step. -/
def execBcStatus (s : State) : Host.Outcome State Fault Refusal := .next (s.tookStatus.sendStatus s.statusAnswer)

/-- `BC_READ_DATA` (R118, R85): the answer is given in the same step. -/
def execBcReadData (s : State) : Host.Outcome State Fault Refusal := .next s.readData.2

/-- `BC_WRITE_DATA` (R119). -/
def execBcWriteData (b : Byte) (s : State) : Host.Outcome State Fault Refusal := .next (s.sendWriteData b)

end Sys2Proof.Machine
end

