-- ==== Sys2Proof/Machine/Completion.lean ====
section
/-!
DEFINITION. The continuations (spec 30_encoding.md R87, 41_transaction_engine.md R139 to R142, 42_sensor_protocol.md R172 to
R174): what `Complete()` does for each value of `CPL`, from `PHASE = Complete` on.
-/

namespace Sys2Proof.Machine

/-- `CPL_NOTIFY` (R140): only the pulse. -/
def execCplNotify (s : State) : Host.Outcome State Fault Refusal := completing (some .notify) s

/-- `CPL_DECODE_TEMP` (R172). -/
def execCplDecodeTemp (s : State) : Host.Outcome State Fault Refusal := completing (some .decodeTemp) s

/-- `CPL_DECODE_THYST` (R173). -/
def execCplDecodeThyst (s : State) : Host.Outcome State Fault Refusal := completing (some .decodeThyst) s

/-- `CPL_DECODE_TOS` (R174). -/
def execCplDecodeTos (s : State) : Host.Outcome State Fault Refusal := completing (some .decodeTos) s

/-- `CPL_CHAIN` (R141): start the staged descriptor. -/
def execCplChain (s : State) : Host.Outcome State Fault Refusal := completing (some .chain) s

/-- `CPL_NONE` (R139): no continuation, no pulse; the transaction completes and retires. -/
def execCplNone (_ : BitVec 3) (s : State) : Host.Outcome State Fault Refusal := completing none s

end Sys2Proof.Machine
end

