-- ==== Sys2Proof/Machine/Engine.lean ====
section
/-!
DEFINITION. The Transaction Engine's two operations (spec 41_transaction_engine.md): `START` (R131) and `BUS_EVENT` with its
dispatch and five branches (R132 to R138).
-/

namespace Sys2Proof.Machine

/-- `START` (R131): `EngineStart` of the staged descriptor. -/
def execStart (s : State) : Host.Outcome State Fault Refusal := foreground s (engineStart s.staged s).2

/-- Branch W1 (R133): send one byte; after the last, mark. -/
def branchW1 (s : State) : Host.Outcome State Fault Refusal :=
  match Memory.read s.wptr.toNat s.txbuf with
  | none => .fault (.unwrittenTx s.wptr.toNat)
  | some b =>
    let t := { s.sendWriteData b with wptr := s.wptr + 1#8, wrem := s.wrem - 1#8 }
    .next (if t.wrem = 0#8 then t.sendMarkLast else t)

/-- Branch W2 (R134): the write phase is exhausted; start the read phase, or complete. -/
def branchW2 (s : State) : Host.Outcome State Fault Refusal :=
  if 0 < s.rrem.toNat then .next ({ s with tail := false, phase := .reading }.sendStartRead s.taddr)
  else completeLive { s with tail := false }

/-- Branch RD0 (R135): the buffer is not yet primed. -/
def branchRD0 (s : State) : Host.Outcome State Fault Refusal :=
  .next (if s.rrem = 1#8 then s.sendAck.sendMarkLast else s.sendAck)

/-- Store the received byte and advance the write position (R136, R137). -/
def State.storeByte (s : State) (b : Byte) : State :=
  { s with rxbuf := Memory.write s.rptr.toNat b s.rxbuf, rptr := s.rptr + 1#8 }

/-- Branch RD1 (R136): more than one byte remains; the mark depends on the decremented count. -/
def branchRD1 (s : State) : Host.Outcome State Fault Refusal :=
  let r := ({ s with rrem := s.rrem - 1#8 }).sendAck.readData
  let t := r.2.storeByte r.1
  .next (if t.rrem = 1#8 then t.sendMarkLast else t)

/-- Branch RD2 (R137): the last byte, stored before the completion. -/
def branchRD2 (s : State) : Host.Outcome State Fault Refusal :=
  let r := ({ s with rrem := 0#8 }).readData
  completeLive (r.2.storeByte r.1)

/-- The dispatch of R132, after `status()` has answered `w`: `PHASE` selects the side; no enabled branch is no action (R138). -/
def dispatchEvent (w : StatusWord) (s : State) : Host.Outcome State Fault Refusal :=
  match s.phase with
  | .writing =>
    if 0 < s.wrem.toNat then branchW1 s
    else if s.tail then branchW2 s
    else .next s
  | .reading =>
    if w.phase = .write then .next s
    else if w.bufferFull = false then branchRD0 s
    else if 1 < s.rrem.toNat then branchRD1 s
    else if s.rrem = 1#8 then branchRD2 s
    else .next s
  | .idle => .next s
  | .complete => .next s

/-- `BUS_EVENT` (R132): one whole handler step. -/
def execBusEvent (w : StatusWord) (s : State) : Host.Outcome State Fault Refusal :=
  if s.evPend then dispatchEvent w (s.takeByteEvent w) else .refused .noEventPending

end Sys2Proof.Machine
end

