-- ==== Sys2Proof/Machine/Sensor.lean ====
section
/-!
DEFINITION. The Sensor Protocol Layer (spec 42_sensor_protocol.md): `CONFIGURE` (R161), the six sensor operations (R162 to R167)
and the delay step (R168).
-/

namespace Sys2Proof.Machine

/-- `CONFIGURE mode` (R161): forwarded in every `PHASE`. -/
def execConfigure (mode : Byte) (s : State) : Host.Outcome State Fault Refusal := foreground s (s.sendConfigure mode)

/-- `POWER_UP` (R162). -/
def execPowerUp (s : State) : Host.Outcome State Fault Refusal :=
  foreground s (protoStart [Config.ptrConfig, Config.cfgPowerUp] 0#8 0b0000#4 s).2

/-- `POWER_DOWN` (R163). -/
def execPowerDown (s : State) : Host.Outcome State Fault Refusal :=
  foreground s (protoStart [Config.ptrConfig, Config.cfgPowerDown] 0#8 0b0000#4 s).2

/-- `START_CONV` (R164). -/
def execStartConv (s : State) : Host.Outcome State Fault Refusal :=
  foreground s (protoStart [Config.ptrOneshot] 0#8 0b0000#4 s).2

/-- `READ_MEAS` (R165): the pointer write, then the delay. -/
def execReadMeas (s : State) : Host.Outcome State Fault Refusal :=
  foreground s (pointerThenDelay Config.ptrTemp .delayTemp s)

/-- `READ_LIMIT which` (R166): the pointer write, then the delay. -/
def execReadLimit (which : Limit) (s : State) : Host.Outcome State Fault Refusal :=
  foreground s (pointerThenDelay (limitPointer which) (limitDelay which) s)

/-- `WRITE_LIMIT which, v` (R167): pointer and the two bytes of the encoded limit. -/
def execWriteLimit (which : Limit) (v : Int) (s : State) : Host.Outcome State Fault Refusal :=
  foreground s (protoStart [limitPointer which, (encodeLimit v).1, (encodeLimit v).2] 0#8 0b0000#4 s).2

/-- `DELAY_DONE` (R168): back to `Ready`, then the two-byte read with the decode that `SEQ` named. -/
def execDelayDone (s : State) : Host.Outcome State Fault Refusal :=
  if s.seq = .ready then .refused .noDelayRunning
  else .next (protoStart [] 2#8 (delayCpl s.seq) s.endDelay).2

end Sys2Proof.Machine
end

