-- ==== Sys2Proof/Machine/Dispatch.lean ====
section
/-!
DEFINITION. The one dispatch from instruction to meaning.
-/

namespace Sys2Proof.Machine

def exec (i : Instr) (s : State) : Host.Outcome State Fault Refusal :=
  match i with
  | .configure mode => Sys2Proof.Machine.execConfigure mode s
  | .start => Sys2Proof.Machine.execStart s
  | .powerUp => Sys2Proof.Machine.execPowerUp s
  | .powerDown => Sys2Proof.Machine.execPowerDown s
  | .startConv => Sys2Proof.Machine.execStartConv s
  | .readMeas => Sys2Proof.Machine.execReadMeas s
  | .readLimit which => Sys2Proof.Machine.execReadLimit which s
  | .writeLimit which v => Sys2Proof.Machine.execWriteLimit which v s
  | .bcConfigure mode => Sys2Proof.Machine.execBcConfigure mode s
  | .bcReset => Sys2Proof.Machine.execBcReset s
  | .bcStartWrite address => Sys2Proof.Machine.execBcStartWrite address s
  | .bcStartRead address => Sys2Proof.Machine.execBcStartRead address s
  | .bcAck => Sys2Proof.Machine.execBcAck s
  | .bcMarkLast => Sys2Proof.Machine.execBcMarkLast s
  | .bcStatus => Sys2Proof.Machine.execBcStatus s
  | .bcReadData => Sys2Proof.Machine.execBcReadData s
  | .bcWriteData b => Sys2Proof.Machine.execBcWriteData b s
  | .busEvent status => Sys2Proof.Machine.execBusEvent status s
  | .cplNotify => Sys2Proof.Machine.execCplNotify s
  | .cplDecodeTemp => Sys2Proof.Machine.execCplDecodeTemp s
  | .cplDecodeThyst => Sys2Proof.Machine.execCplDecodeThyst s
  | .cplDecodeTos => Sys2Proof.Machine.execCplDecodeTos s
  | .cplChain => Sys2Proof.Machine.execCplChain s
  | .cplNone id => Sys2Proof.Machine.execCplNone id s
  | .delayDone => Sys2Proof.Machine.execDelayDone s

end Sys2Proof.Machine
end

