-- ==== Sys2Proof/Machine/HostPort.lean ====
section
/-!
DEFINITION. The host port (spec 10_state.md R33 to R35, 20_memory.md R60 to R62, R68): the 17 registers by number and the two
buffers by index. A write of `CMD` issues a command and is in Machine/Fetch.lean.
-/

namespace Sys2Proof.Machine

/-- What register number `n` reads (R33): bits above the register's own are 0; `CMD` and any number above 16 read 0. -/
def State.readRegister (s : State) (n : Nat) : HostWord :=
  match n with
  | 1 => s.stat
  | 2 => s.sTaddr.setWidth 32
  | 3 => s.sWptr.setWidth 32
  | 4 => s.sWcnt.setWidth 32
  | 5 => s.sRptr.setWidth 32
  | 6 => s.sRcnt.setWidth 32
  | 7 => s.sCpl.setWidth 32
  | 8 => s.resTemp
  | 9 => s.resThyst.setWidth 32
  | 10 => s.resTos.setWidth 32
  | 11 => s.taddr.setWidth 32
  | 12 => s.wptr.setWidth 32
  | 13 => s.wrem.setWidth 32
  | 14 => s.rptr.setWidth 32
  | 15 => s.rrem.setWidth 32
  | 16 => s.cpl.setWidth 32
  | _ => 0#32

/-- A write of register number `n`, `n` not `CMD` (R33): only the staged registers take one; the rest ignore it. -/
def State.writeRegister (s : State) (n : Nat) (v : HostWord) : State :=
  match n with
  | 2 => { s with sTaddr := v.setWidth 7 }
  | 3 => { s with sWptr := v.setWidth 8 }
  | 4 => { s with sWcnt := v.setWidth 8 }
  | 5 => { s with sRptr := v.setWidth 8 }
  | 6 => { s with sRcnt := v.setWidth 8 }
  | 7 => { s with sCpl := v.setWidth 4 }
  | _ => s

/-- The host port gives a value back (log 16). -/
def State.reply (s : State) (d : HostData) : State := { s with hostOut := some d }

/-- A write of a `TXBUF` byte; refused where the engine owns it (R68, U4). -/
def hostWriteTx (a b : Byte) (s : State) : Host.Outcome State Fault Refusal :=
  if s.ownsTx a then .refused (.ownedTx a) else .next { s with txbuf := Memory.write a.toNat b s.txbuf }

/-- A read of a `TXBUF` byte, which the foreground may make at any time (R68; log 2). -/
def hostReadTx (a : Byte) (s : State) : Host.Outcome State Fault Refusal :=
  match Memory.read a.toNat s.txbuf with
  | some b => .next (s.reply (.byte b))
  | none => .fault (.unwrittenTx a.toNat)

/-- A write of an `RXBUF` byte; refused where the engine owns it (R68, U4). -/
def hostWriteRx (a b : Byte) (s : State) : Host.Outcome State Fault Refusal :=
  if s.ownsRx a then .refused (.ownedRx a) else .next { s with rxbuf := Memory.write a.toNat b s.rxbuf }

/-- A read of an `RXBUF` byte; refused where the engine owns it (R68, U4; log 2). -/
def hostReadRx (a : Byte) (s : State) : Host.Outcome State Fault Refusal :=
  if s.ownsRx a then .refused (.ownedRx a)
  else
    match Memory.read a.toNat s.rxbuf with
    | some b => .next (s.reply (.byte b))
    | none => .fault (.unwrittenRx a.toNat)

/-- A host access that is no command (R33, R93, R94); for `wait_idle` one of its reads. -/
def hostAccess (op : HostOp) (s : State) : Host.Outcome State Fault Refusal :=
  match op with
  | .write n v => .next (s.writeRegister n v)
  | .read n => .next (s.reply (.register (s.readRegister n)))
  | .writeTx a b => hostWriteTx a b s
  | .readTx a => hostReadTx a s
  | .writeRx a b => hostWriteRx a b s
  | .readRx a => hostReadRx a s
  | .waitIdle => .next (s.reply (.register s.stat))

end Sys2Proof.Machine
end

