-- ==== Sys2Proof/Machine/Fetch.lean ====
section
/-!
DEFINITION. Which agent moves next and what it runs (spec 00_scope.md R5, 60_exceptions.md R196 to R200): the block fetches no
instructions (R72), so an instruction comes from the word at one of its ports (log 4, log 12).
-/

namespace Sys2Proof.Machine

/-- What a step does: run an instruction in a state, or something that is no row of the opcode table. -/
inductive Fetched where
  | run (i : Instr) (s : State)
  | done (o : Host.Outcome State Fault Refusal)

/-- A foreground host access, as against what the environment does. -/
def Stimulus.isHost : Stimulus → Bool
  | .host _ => true
  | .delayDone | .byteEvent _ _ _ | .reset | .busCommand _ => false

/-- Whether this input can be taken now: host accesses only while `SEQ = Ready` (R35), the delay's end only while `SEQ` is not
`Ready` (R168), the environment's others always. -/
def State.takes (s : State) : Stimulus → Bool
  | .host _ => decide (s.seq = .ready)
  | .delayDone => !decide (s.seq = .ready)
  | .byteEvent _ _ _ | .reset | .busCommand _ => true

/-- The first input that `p` lets be taken, and the others in their order. -/
def takeFirst (p : Stimulus → Bool) : List Stimulus → Option (Stimulus × List Stimulus)
  | [] => none
  | x :: xs =>
    if p x then some (x, xs)
    else
      match takeFirst p xs with
      | some (y, ys) => some (y, x :: ys)
      | none => none

/-- The input a step takes, and the others: an input that must wait stays where it is, and the environment goes on past it
(R29, R35; log 7). -/
def pick (s : State) : Option (Stimulus × List Stimulus) := takeFirst s.takes s.stim

/-- Reset overrides everything (R198(d)); an `early` event comes before the handler step of one already pending (R197). -/
def Stimulus.preempts : Stimulus → Bool
  | .reset => true
  | .byteEvent early _ _ => early
  | .host _ | .delayDone | .busCommand _ => false

/-- A handler step is due: an event is pending (R198(a)), or a completion is not over (R139; log 10). -/
def State.handlerDue (s : State) : Bool := s.evPend || decide (s.phase = .complete)

/-- The handler's instruction: the completion that `CPL` names, or `BUS_EVENT` with the controller's status word (R199). -/
def serve (s : State) : Fetched :=
  if s.phase = .complete then
    match decode (.completion s.cpl) with
    | .ok i => .run i s
    | .error _ => .done (.refused (.reservedContinuation (cplId s.cpl)))
  else
    match decode (.event s.statusAnswer) with
    | .ok i => .run i s.tookStatus
    | .error _ => .done (.refused .noEventPending)

/-- The reset input (R220, R221): every state element at its reset value; the environment's inputs stay (log 17), and the controller
is not reset (log 27). -/
def State.hardReset (s : State) : State :=
  { State.reset with stim := s.stim, ansStatus := s.ansStatus, ansData := s.ansData, draws := s.draws, bcPast := s.bcTold }

/-- A write of `CMD` (R33, R91, R194). -/
def command (w : HostWord) (s : State) : Fetched :=
  match decode (.host w) with
  | .ok i => .run i s
  | .error _ => .done (.next s.flagIllCmd)

/-- A word at the Bus Controller's command port on its own (R83, R84; log 9, log 25). -/
def busPort (w : BusWord) (s : State) : Fetched :=
  match decode (.bus w) with
  | .ok i => .run i s
  | .error _ => .done (.refused (.notABusCommand w))

/-- The read shows `Idle` and `Ready`, which ends `wait_idle` (R94). -/
def State.readsIdle (s : State) : Bool := decide (s.stat.extractLsb' 0 2 = 0#2) && decide (s.stat.extractLsb' 4 2 = 0#2)

/-- What is left to take after a read of `wait_idle` that failed: `wait_idle` again, once the environment has had its next input.
DESIGN CHOICE: one failing read for each input of the environment (R94; log 24). -/
def State.pollAgain (s : State) : List Stimulus :=
  match takeFirst (fun x => s.takes x && !x.isHost) s.stim with
  | some (y, ys) => y :: .host .waitIdle :: ys
  | none => .host .waitIdle :: s.stim

/-- One read of `wait_idle` (R94). -/
def pollStat (s : State) : State :=
  { s.reply (.register s.stat) with stim := if s.readsIdle then s.stim else s.pollAgain }

/-- A host access: a write of `CMD` issues a command, `wait_idle` reads on (R33, R94). -/
def deliverHost (op : HostOp) (s : State) : Fetched :=
  match op with
  | .write n v => if n = 0 then command v s else .done (hostAccess (.write n v) s)
  | .waitIdle => .done (.next (pollStat s))
  | .read n => .done (hostAccess (.read n) s)
  | .writeTx a b => .done (hostAccess (.writeTx a b) s)
  | .readTx a => .done (hostAccess (.readTx a) s)
  | .writeRx a b => .done (hostAccess (.writeRx a b) s)
  | .readRx a => .done (hostAccess (.readRx a) s)

/-- Take one input. -/
def deliver (x : Stimulus) (s : State) : Fetched :=
  match x with
  | .host op => deliverHost op s
  | .delayDone => .run .delayDone s
  | .byteEvent _ w b => .done (.next (s.raiseEvent w b))
  | .reset => .done (.next s.hardReset)
  | .busCommand w => busPort w s

/-- The next step's work: a preempting input, else the handler, else the next input, else nothing (R198; log 6). -/
def fetch (s : State) : Fetched :=
  match pick s with
  | some (x, rest) =>
    if x.preempts || !s.handlerDue then deliver x { s with stim := rest } else serve s
  | none => if s.handlerDue then serve s else .done (.next s)

/-- The outputs of the last step are driven for that step only (R140, R201; log 16). -/
def State.clearOutputs (s : State) : State := { s with cplPulse := none, hostOut := none }

/-- No completion is in progress, so that the next input or event is taken. -/
def Phase.settled (p : Phase) : Phase := if p = .complete then .idle else p

/-- `s` with a word placed where the next step takes it (log 12): a host word as a write of `CMD`, with the port ready and no
event pending; a controller command at its port; a status word with a pending byte-event; a continuation in `CPL`, with the
completion begun; the end of a running delay. -/
def State.place (s : State) : PortWord → State
  | .host w =>
    { s with stim := .host (.write 0 w) :: s.stim, seq := .ready, evPend := false, phase := s.phase.settled }
  | .bus w => { s with stim := .busCommand w :: s.stim, evPend := false, phase := s.phase.settled }
  | .event w =>
    { s with
      stim := s.stim.filter (fun x => !x.preempts)
      evPend := true
      ansStatus := some w
      phase := s.phase.settled }
  | .completion w => { s with stim := s.stim.filter (fun x => !x.preempts), phase := .complete, cpl := w }
  | .delay =>
    { s with
      stim := .delayDone :: s.stim
      evPend := false
      phase := s.phase.settled
      seq := if s.seq = .ready then .delayTemp else s.seq }

end Sys2Proof.Machine
end

