-- ==== Sys2Proof/Machine/Step.lean ====
section
/-!
DEFINITION. One step of the machine: one foreground step, one handler step, or one act of the environment (spec 00_scope.md R5).
-/

namespace Sys2Proof.Machine

/-- One step (R5, R198, R199). -/
def step (s : State) : Host.Outcome State Fault Refusal :=
  match fetch s.clearOutputs with
  | .run i t => exec i t
  | .done o => o

/-- `s` with an opcode-table word placed where the next step takes its instruction (log 12). -/
def State.withFetchWord (s : State) (nbits w : Nat) : State :=
  match tableWord nbits w with
  | some p => s.place p
  | none => s

end Sys2Proof.Machine
end

