-- ==== Sys2Proof/Machine/Lines.lean ====
section
/-!
DEFINITION. The line syntax of host programs and environment traces (spec 30_encoding.md R93, R94), as data: which inputs a line
stands for. It feeds `State.stim`; the machine never reads a line.
-/

namespace Sys2Proof.Machine

/-- The host registers by name (R33). -/
inductive HostRegister where
  | cmd
  | stat
  | sTaddr
  | sWptr
  | sWcnt
  | sRptr
  | sRcnt
  | sCpl
  | resTemp
  | resThyst
  | resTos
  | lTaddr
  | lWptr
  | lWrem
  | lRptr
  | lRrem
  | lCpl
  deriving DecidableEq, Repr

/-- A register's number (R33). -/
def HostRegister.number : HostRegister → Nat
  | .cmd => 0
  | .stat => 1
  | .sTaddr => 2
  | .sWptr => 3
  | .sWcnt => 4
  | .sRptr => 5
  | .sRcnt => 6
  | .sCpl => 7
  | .resTemp => 8
  | .resThyst => 9
  | .resTos => 10
  | .lTaddr => 11
  | .lWptr => 12
  | .lWrem => 13
  | .lRptr => 14
  | .lRrem => 15
  | .lCpl => 16

/-- A line of R93 or a pseudo-instruction of R94. The first eight are the host commands. -/
inductive Line where
  | configure (m : Byte)
  | start
  | powerUp
  | powerDown
  | startConv
  | readMeas
  | readLimit (which : Limit)
  | writeLimit (which : Limit) (v : Int)
  | wr (r : HostRegister) (v : HostWord)
  | rd (r : HostRegister)
  | wrtx (a b : Byte)
  | rdtx (a : Byte)
  | wrrx (a b : Byte)
  | rdrx (a : Byte)
  | stage (d : Descriptor)
  | waitIdle
  | event (s : BitVec 2)
  | eventData (s : BitVec 2) (b : Byte)
  | delayDone
  | reset
  deriving DecidableEq, Repr

/-- A host command line: a write of its word to `CMD` (R93). -/
def commandLine (i : Instr) : List Stimulus :=
  match encode i with
  | .host w => [.host (.write 0 w)]
  | .bus _ | .event _ | .completion _ | .delay => []

/-- The inputs a line stands for (R93, R94). -/
def Line.expand : Line → List Stimulus
  | .configure m => commandLine (.configure m)
  | .start => commandLine .start
  | .powerUp => commandLine .powerUp
  | .powerDown => commandLine .powerDown
  | .startConv => commandLine .startConv
  | .readMeas => commandLine .readMeas
  | .readLimit which => commandLine (.readLimit which)
  | .writeLimit which v => commandLine (.writeLimit which v)
  | .wr r v => [.host (.write r.number v)]
  | .rd r => [.host (.read r.number)]
  | .wrtx a b => [.host (.writeTx a b)]
  | .rdtx a => [.host (.readTx a)]
  | .wrrx a b => [.host (.writeRx a b)]
  | .rdrx a => [.host (.readRx a)]
  | .stage d =>
    [.host (.write 2 (d.taddr.setWidth 32)), .host (.write 3 (d.wptr.setWidth 32)), .host (.write 4 (d.wcnt.setWidth 32)),
     .host (.write 5 (d.rptr.setWidth 32)), .host (.write 6 (d.rcnt.setWidth 32)), .host (.write 7 (d.cpl.setWidth 32))]
  | .waitIdle => [.host .waitIdle]
  | .event s => [.byteEvent false s none]
  | .eventData s b => [.byteEvent false s (some b)]
  | .delayDone => [.delayDone]
  | .reset => [.reset]

/-- Queue the inputs of a list of lines after those already waiting. -/
def State.feed (s : State) (ls : List Line) : State := { s with stim := s.stim ++ ls.flatMap Line.expand }

end Sys2Proof.Machine
end

