-- ==== Sys2Proof/Safety.lean ====
section
/-!
DEFINITION. What claims about runs are stated in: the invariants of 10_state.md R26, the ownership window of 20_memory.md R68,
finished, faulted and stuck states (70_reset_and_hazards.md R235, 60_exceptions.md R191, R195), and the named premises about the
Bus Controller and the delay (40_bus_controller_interface.md R122 to R128, 70_reset_and_hazards.md R227).
-/

namespace Sys2Proof.Machine

/-- The invariants I2 to I4 and I6 of R26, with what they rest on: in `Complete` nothing is left to move (R139), the live
continuation is never a reserved one (R130), and both buffers keep their canonical form. -/
structure State.Inv (s : State) : Prop where
  /-- I2. -/
  idle : s.phase = .idle → s.wrem = 0#8 ∧ s.rrem = 0#8 ∧ cplSet s.cpl = false ∧ s.tail = false
  /-- I3. -/
  writing : s.phase = .writing → s.tail = true
  /-- I4. -/
  reading : s.phase = .reading → s.wrem = 0#8 ∧ 1 ≤ s.rrem.toNat
  /-- A completing transaction has moved all its bytes. -/
  completing : s.phase = .complete → s.wrem = 0#8 ∧ s.rrem = 0#8
  /-- I6. -/
  bounds : s.phase.live = true → s.wptr.toNat + s.wrem.toNat ≤ 256 ∧ s.rptr.toNat + s.rrem.toNat ≤ 256
  /-- No reserved continuation is live. -/
  continuation : cplBad s.cpl = false
  /-- `TXBUF` is in canonical form. -/
  txbuf : Memory.wf s.txbuf = true
  /-- `RXBUF` is in canonical form. -/
  rxbuf : Memory.wf s.rxbuf = true

/-- While a transaction is live, its registers are where its own descriptor put them, moved on by the bytes already done
(R20, R22, R68). -/
structure State.WindowInv (s : State) : Prop where
  /-- The descriptor was admitted. -/
  admitted : s.phase.live = true → badDesc s.own = false
  /-- The target does not change. -/
  target : s.phase.live = true → s.taddr = s.own.taddr
  /-- Bytes sent and bytes to send make up the count. -/
  sending : s.phase.live = true → s.wrem.toNat ≤ s.own.wcnt.toNat ∧ s.wptr + s.wrem = s.own.wptr + s.own.wcnt
  /-- Bytes received and bytes to receive make up the count. -/
  receiving : s.phase.live = true → s.rrem.toNat ≤ s.own.rcnt.toNat ∧ s.rptr + s.rrem = s.own.rptr + s.own.rcnt

/-- An error flag is set: the run counts as faulted (R191, R235). -/
def State.faulted (s : State) : Bool := s.errBusyStart || s.errBadDesc || s.errIllCmd

/-- A finished run (R235): quiescent, the host has no more steps, no flag. -/
def State.final (s : State) : Bool :=
  decide (s.seq = .ready) && decide (s.phase = .idle) && !s.evPend && !s.stim.any Stimulus.isHost && !s.faulted

/-- An input that raises a byte-event. -/
def Stimulus.isEvent : Stimulus → Bool
  | .byteEvent _ _ _ => true
  | .host _ | .delayDone | .reset | .busCommand _ => false

/-- An input that must wait: a host access while `SEQ` is not `Ready` (R35), the delay's end while it is (R168). -/
def inputWaits (s : State) (x : Stimulus) : Prop :=
  (x.isHost = true ∧ s.seq ≠ .ready) ∨ (x = .delayDone ∧ s.seq = .ready)

/-- No input but those that must wait stands before `x`. -/
def comesFirst (s : State) (x : Stimulus) : Prop := ∃ pre rest, s.stim = pre ++ x :: rest ∧ ∀ y ∈ pre, inputWaits s y

/-- A stalled transaction: live, nothing pending, and no byte-event to come (R144, R195). -/
def State.stalled (s : State) : Bool := s.phase.live && !s.evPend && !s.stim.any Stimulus.isEvent

/-- Where the controller's sequence stands, as its commands and their answers tell (R122 to R126; DEDUCED, log 21). -/
inductive Sequence where
  /-- No sequence is in progress. -/
  | quiet
  /-- A write sequence that will ask for a byte. -/
  | write
  /-- It asked, and no byte was supplied since. -/
  | writeAsked
  /-- The byte supplied is marked as the last of the write sequence, which has one event more, to report it sent. -/
  | writeLast
  /-- It was reported: the write sequence is over. -/
  | writeEnded
  /-- A read sequence whose address is being sent. -/
  | readAddress
  /-- Its first event was sampled and not yet acknowledged. -/
  | readAddressAsked
  /-- A byte is being received. -/
  | readData
  /-- A received byte was reported and not yet acknowledged: taken without `ack`, it is the last. -/
  | readDataAsked
  /-- A received byte was acknowledged and not yet taken. -/
  | readDataAcked
  /-- The last sequence ran to its end: the last byte was taken, or `reset()` came after the end. -/
  | ended
  deriving DecidableEq, Repr

/-- `status()` is the first command of a handler step: the event it samples is not yet served (R117). The one after the marked byte
finds nothing left to send (R116, R123). -/
def Sequence.sampled : Sequence → Sequence
  | .write | .writeAsked => .writeAsked
  | .writeLast => .writeEnded
  | .readAddress | .readAddressAsked => .readAddressAsked
  | .readData | .readDataAsked | .readDataAcked => .readDataAsked
  | .quiet => .quiet
  | .writeEnded => .writeEnded
  | .ended => .ended

/-- No sequence is in progress. -/
def Sequence.isOver (q : Sequence) : Bool := decide (q = .quiet) || decide (q = .writeEnded) || decide (q = .ended)

/-- How one command moves the controller's sequence (R112 to R119, R122 to R126). -/
def Sequence.next (q : Sequence) (e : BusEntry) : Sequence :=
  match decodeBus e.word with
  | .ok .bcReset => if q = .writeEnded ∨ q = .ended then .ended else .quiet
  | .ok (.bcStartWrite _) => .write
  | .ok (.bcStartRead _) => .readAddress
  | .ok .bcStatus => q.sampled
  | .ok (.bcWriteData _) => if q = .writeAsked then .write else q
  | .ok .bcMarkLast => if q = .write then .writeLast else q
  | .ok .bcAck =>
    match q with
    | .readAddressAsked => .readData
    | .readDataAsked => .readDataAcked
    | _ => q
  | .ok .bcReadData =>
    match q with
    | .readDataAcked => .readData
    | .readAddressAsked | .readDataAsked => .ended
    | _ => q
  | _ => q

/-- Where the sequence stands after all the controller was told. DESIGN CHOICE (log 27): it was told nothing before `State.reset`.
DESIGN CHOICE (log 29): an event counts once it is sampled, so one that was raised and then lost to the block's reset, which clears
`EVPEND` before its handler step, has not counted and may be raised again. -/
def sequenceOf (told : List BusEntry) : Sequence := told.foldl Sequence.next .quiet

/-- The mode the controller holds after all it was told, if `configure` gave it one: `reset()` keeps it or not, an OPEN parameter
(R6, R111, R222). DESIGN CHOICE (log 28): none before the first `configure`. -/
def modeOf (told : List BusEntry) : Option Byte :=
  told.foldl
    (fun m e =>
      match decodeBus e.word with
      | .ok (.bcConfigure mode) => some mode
      | .ok .bcReset => if Config.bcResetKeepsConfig then m else none
      | _ => m)
    none

/-- Premise `BC_Quiet` (R122) at a raise: a sequence the controller was told to start is in progress; one that the block's hardware
reset abandoned still is (R221; log 27). -/
def bcQuiet (s : State) : Bool := !(sequenceOf s.bcTold).isOver

/-- The handler has not answered the last event: no byte supplied, or no `ack` given, since it was sampled (R127). -/
def Sequence.unanswered (q : Sequence) : Bool :=
  decide (q = .writeAsked) || decide (q = .readAddressAsked) || decide (q = .readDataAsked)

/-- Premise `BC_Write` (R123) at a raise that will answer `w`: it answers `WRITE`, and each event after the first follows the byte last
given with `write_data_byte`. -/
def bcWrite (s : State) (w : StatusWord) : Bool :=
  match sequenceOf s.bcTold with
  | .write | .writeLast | .writeEnded => decide (w.phase = .write)
  | .writeAsked => false
  | .quiet | .ended | .readAddress | .readAddressAsked | .readData | .readDataAsked | .readDataAcked => true

/-- Premise `BC_ReadPrime` (R124) at a raise that will answer `w`: the first event after a `start_read` is the unprimed one, and no
other event is; one that was raised and lost to the block's reset before it was sampled does not count (DESIGN CHOICE, log 29). -/
def bcReadPrime (s : State) (w : StatusWord) : Bool :=
  decide (sequenceOf s.bcTold = .readAddress) == decide (w = { phase := .read, bufferFull := false })

/-- Premise `BC_ReadData` (R125) at a raise that will answer `w`. -/
def bcReadData (s : State) (w : StatusWord) : Bool :=
  match sequenceOf s.bcTold with
  | .readData | .readDataAsked | .readDataAcked => decide (w = { phase := .read, bufferFull := true })
  | .quiet | .ended | .write | .writeAsked | .writeLast | .writeEnded | .readAddress | .readAddressAsked => true

/-- Premise `BC_End` (R126) at a raise: the transaction of the last start has not completed. It completes when its sequence comes to
its end, not when the block's reset abandons it, and the block's reset does not lift the ban (log 21, log 27). -/
def bcEnd (s : State) : Bool :=
  s.phase.live || !(decide (sequenceOf s.bcTold = .writeEnded) || decide (sequenceOf s.bcTold = .ended))

/-- Premise `BC_Serial` (R127) at a raise: the handler step for the previous event has ended, and the handler has supplied the byte
that event asked for or acknowledged what it reported. -/
def bcSerial (s : State) : Bool := !s.evPend && !(sequenceOf s.bcTold).unanswered

/-- A byte-event a conforming controller may raise in `s` (R122 to R127). -/
def conformingEvent (s : State) (w : StatusWord) : Bool :=
  bcQuiet s && bcWrite s w && bcReadPrime s w && bcReadData s w && bcEnd s && bcSerial s

/-- How many more handler steps a conforming controller's sequence calls for until the transaction completes (R145); none where none is
live (log 21). -/
def State.eventsOwed (s : State) : Nat :=
  match s.phase with
  | .writing => s.wrem.toNat + 1 + (if 0 < s.rrem.toNat then s.rrem.toNat + 1 else 0)
  | .reading => s.rrem.toNat + (if sequenceOf s.bcTold = .readAddress then 1 else 0)
  | .idle => 0
  | .complete => 0

/-- The input that resets the block. -/
def Stimulus.isReset : Stimulus → Bool
  | .reset => true
  | .host _ | .delayDone | .byteEvent _ _ _ | .busCommand _ => false

/-- How many byte-events have arrived and are not handled, or arrive before the block is reset. -/
def State.eventsToCome (s : State) : Nat :=
  (if s.evPend then 1 else 0) + ((s.stim.takeWhile (fun x => !x.isReset)).filter Stimulus.isEvent).length

/-- Premise `BC_Progress` (R128) in `s`: every byte-event called for has arrived or is among the inputs to come. -/
def bcProgress (s : State) : Bool := decide (s.eventsOwed ≤ s.eventsToCome)

/-- Premise `DelayCovers` (R227) at the delay step. -/
def delayCovers (s : State) : Bool := decide (s.phase = .idle)

/-- The controller's sequence is where the engine's phase needs it, between two handler steps (R123 to R126). -/
def sequenceInStep (s : State) : Bool :=
  match s.phase with
  | .writing => decide (sequenceOf s.bcTold = if s.wrem = 0#8 then .writeLast else .write)
  | .reading => decide (sequenceOf s.bcTold = .readAddress) || decide (sequenceOf s.bcTold = .readData)
  | .idle => (sequenceOf s.bcTold).isOver
  | .complete => (sequenceOf s.bcTold).isOver

/-- Whatever the controller answers, its sequence is in the phase of the live transaction. -/
structure State.InPhase (s : State) : Prop where
  /-- The write sequence asks for the bytes left, then reports the last. -/
  writing : s.phase = .writing → sequenceOf s.bcTold = if s.wrem = 0#8 then .writeLast else .write
  /-- A read sequence is in progress. -/
  reading : s.phase = .reading → sequenceOf s.bcTold = .readAddress ∨ sequenceOf s.bcTold = .readAddressAsked ∨
    sequenceOf s.bcTold = .readData ∨ sequenceOf s.bcTold = .readDataAsked ∨ sequenceOf s.bcTold = .readDataAcked

/-- No sequence is in progress while no transaction is live: `BC_Quiet` alone then admits no event in `Idle` (R122). -/
abbrev State.quietWhenIdle (s : State) : Prop := s.phase.live = false → (sequenceOf s.bcTold).isOver = true

/-- An answerless command in the trace. -/
def sent (w : BusWord) : BusEntry := { word := w, answer := .none }

/-- `status()` in the trace, with its answer. -/
def sampled (w : StatusWord) : BusEntry := { word := 0x700#12, answer := .status w.bits }

/-- `read_data_byte()` in the trace, with its answer. -/
def received (b : Byte) : BusEntry := { word := 0x800#12, answer := .byte b }

/-- The status word of the unprimed read event (R124). -/
def statusUnprimed : StatusWord := { phase := .read, bufferFull := false }

/-- The status word of an event that reports a received byte (R125). -/
def statusFull : StatusWord := { phase := .read, bufferFull := true }

/-- What the events after the unprimed one put into the trace, for the bytes received (R149). -/
def readTrace : List Byte → List BusEntry
  | [] => []
  | [b] => [sampled statusFull, received b]
  | b :: c :: bs =>
    [sampled statusFull, sent 0x500#12, received b] ++ (if bs = [] then [sent 0x600#12] else []) ++ readTrace (c :: bs)

/-- What a write phase puts into the trace, for its events and the bytes sent (R149). -/
def writeTrace (es : List (StatusWord × Byte)) (bytes : List Byte) : List BusEntry :=
  (List.zip es bytes).flatMap (fun p => [sampled p.1.1, sent (0x900#12 + p.2.setWidth 12)]) ++ [sent 0x600#12]

/-- The byte-events of a read phase under a conforming controller: one unprimed, then one a byte (R124, R125). -/
def readEvents (u : Byte) (bytes : List Byte) : List (StatusWord × Byte) :=
  (statusUnprimed, u) :: bytes.map (fun b => (statusFull, b))

/-- The host part of the state that a handler step cannot write (R202), with the flags of host commands, the inputs, and what
the controller was told before the last reset. -/
def sameForeground (s t : State) : Prop :=
  t.sTaddr = s.sTaddr ∧ t.sWptr = s.sWptr ∧ t.sWcnt = s.sWcnt ∧ t.sRptr = s.sRptr ∧ t.sRcnt = s.sRcnt ∧ t.sCpl = s.sCpl
    ∧ t.seq = s.seq ∧ t.dly = s.dly ∧ t.txbuf = s.txbuf ∧ t.errIllCmd = s.errIllCmd ∧ t.hostOut = s.hostOut ∧ t.stim = s.stim
    ∧ t.bcPast = s.bcPast

/-- The live descriptor and the engine's own state (R20, R35). -/
def sameLive (s t : State) : Prop :=
  t.taddr = s.taddr ∧ t.wptr = s.wptr ∧ t.wrem = s.wrem ∧ t.rptr = s.rptr ∧ t.rrem = s.rrem ∧ t.cpl = s.cpl
    ∧ t.phase = s.phase ∧ t.tail = s.tail ∧ t.own = s.own

/-- The staged registers (R25). -/
def sameStaged (s t : State) : Prop :=
  t.sTaddr = s.sTaddr ∧ t.sWptr = s.sWptr ∧ t.sWcnt = s.sWcnt ∧ t.sRptr = s.sRptr ∧ t.sRcnt = s.sRcnt ∧ t.sCpl = s.sCpl

/-- The result slots (R30). -/
def sameResults (s t : State) : Prop :=
  t.resTemp = s.resTemp ∧ t.resThyst = s.resThyst ∧ t.resTos = s.resTos

/-- Handler steps in a row, each for one byte-event with its status answer and the data byte, should it be asked for (R199).
Used to state what a whole transaction does. -/
def serveEvents : List (StatusWord × Byte) → State → Host.Outcome State Fault Refusal
  | [], s => .next s
  | (w, b) :: es, s =>
    match exec (.busEvent w) (s.raiseEvent w.bits (some b)) with
    | .next t => serveEvents es t
    | .fault f => .fault f
    | .refused r => .refused r

end Sys2Proof.Machine
end

