-- ==== Sys2Proof/Certificates/Slice0/Obligations.lean ====
section
/-!
DEFINITION. The statements for the provers, each from the rules of spec/ its docstring names. Every statement about a next state
gives the whole next state, so that what it does not name is unchanged, or is a frame that says so.
-/

open Sys2Proof Sys2Proof.Machine

/-! ## Encodings -/

/-- R80, R92: every well-formed operation has an encoding that decodes to it, with every operand at every value. -/
def Obligations.DecodeEncodeAgree : Prop :=
  ∀ i : Instr, i.wellFormed = true → decode (encode i) = .ok i

/-- R80, R92: no operation has two encodings: a word that decodes is the encoding of what it decodes to. -/
def Obligations.DecodedWordIsTheEncoding : Prop :=
  ∀ (p : PortWord) (i : Instr), decode p = .ok i → i.wellFormed = true ∧ encode i = p

/-- R82, R91, R84: a host word is legal, and a word at the Bus Controller's port a command, exactly when it selects a row of its
table; the rows of each table are disjoint. -/
def Obligations.WordsLegalIffRowSelected : Prop :=
  (∀ w : HostWord, (∃ i, decodeHost w = .ok i) ↔ ∃ r ∈ hostRows, w &&& r.2 = r.1) ∧
  (∀ (w : HostWord) (r q : HostWord × HostWord), r ∈ hostRows → q ∈ hostRows → w &&& r.2 = r.1 → w &&& q.2 = q.1 → r = q) ∧
  (∀ w : BusWord, (∃ i, decodeBus w = .ok i) ↔ ∃ r ∈ busRows, w &&& r.2 = r.1) ∧
  (∀ (w : BusWord) (r q : BusWord × BusWord), r ∈ busRows → q ∈ busRows → w &&& r.2 = r.1 → w &&& q.2 = q.1 → r = q)

/-- R81, R84, R86, R87, and the encodings of 95_test_vectors.md 2.1: a few words of every family decode as the spec says. -/
def Obligations.SampleWordsDecode : Prop :=
  decode (.host 0x0100002A#32) = .ok (.configure 0x2A#8) ∧
  decode (.host 0x02000000#32) = .ok .start ∧
  decode (.host 0x14010000#32) = .ok (.readLimit .overset) ∧
  decode (.host 0x1501FFFF#32) = .ok (.writeLimit .overset (-1)) ∧
  decode (.host 0x1500F800#32) = .ok (.writeLimit .hysteresis (-2048)) ∧
  decode (.bus 0x348#12) = .ok (.bcStartWrite 0x48#7) ∧
  decode (.bus 0x9F0#12) = .ok (.bcWriteData 0xF0#8) ∧
  decode (.event 0b01#2) = .ok (.busEvent { phase := .read, bufferFull := false }) ∧
  decode (.completion 0b1011#4) = .ok .cplDecodeTos

/-! ## What a step runs -/

/-- R33, R132, R168, R199: a step runs the instruction its port's word decodes to. Around it the step ends the last step's outputs and
takes the input off the list, past inputs that must wait, or, for a handler step, uses up the status answer. A host access that is no
command runs in the same way. A handler step that is due runs unless the first input that can be taken is a reset or an early event. The
model's choices: that inputs wait in a list (logs 4, 7 and 22), a controller word run on its own (fourth clause, log 9), a step from
`PHASE` = `Complete` (last clause, log 10). -/
def Obligations.StepRunsDecodedInstruction : Prop :=
  (∀ (s : State) (w : HostWord) (pre rest : List Stimulus) (i : Instr), s.seq = .ready → s.handlerDue = false →
    s.stim = pre ++ .host (.write 0 w) :: rest → (∀ y ∈ pre, inputWaits s y) → decode (.host w) = .ok i →
    step s = exec i { s with cplPulse := none, hostOut := none, stim := pre ++ rest }) ∧
  (∀ (s : State) (op : HostOp) (pre rest : List Stimulus), s.seq = .ready → s.handlerDue = false →
    s.stim = pre ++ .host op :: rest → (∀ y ∈ pre, inputWaits s y) → op ≠ .waitIdle → (∀ w, op ≠ .write 0 w) →
    step s = hostAccess op { s with cplPulse := none, hostOut := none, stim := pre ++ rest }) ∧
  (∀ (s : State) (pre rest : List Stimulus), s.seq ≠ .ready → s.handlerDue = false → s.stim = pre ++ .delayDone :: rest →
    (∀ y ∈ pre, inputWaits s y) →
    step s = exec .delayDone { s with cplPulse := none, hostOut := none, stim := pre ++ rest }) ∧
  (∀ (s : State) (w : BusWord) (pre rest : List Stimulus) (i : Instr), s.handlerDue = false →
    s.stim = pre ++ .busCommand w :: rest → (∀ y ∈ pre, inputWaits s y) → decode (.bus w) = .ok i →
    step s = exec i { s with cplPulse := none, hostOut := none, stim := pre ++ rest }) ∧
  (∀ (s : State) (i : Instr), s.evPend = true → s.phase ≠ .complete →
    (∀ pre x rest, s.stim = pre ++ x :: rest → (∀ y ∈ pre, inputWaits s y) → x.preempts = false) →
    decode (.event s.statusAnswer) = .ok i →
    step s = exec i { s with
      cplPulse := none
      hostOut := none
      ansStatus := none
      draws := if s.ansStatus.isSome then s.draws else s.draws + 1 }) ∧
  (∀ (s : State) (i : Instr), s.phase = .complete →
    (∀ pre x rest, s.stim = pre ++ x :: rest → (∀ y ∈ pre, inputWaits s y) → x.preempts = false) →
    decode (.completion s.cpl) = .ok i → step s = exec i { s with cplPulse := none, hostOut := none })

/-- R33, R91, R194: a write of `CMD` with an illegal word sets `ERR_ILL_CMD` and does nothing else. The model's choice (logs 4 and 22):
the inputs stand in a list, and a delay's end that stands before the write while no delay runs stays there. -/
def Obligations.IllegalCommandOnlyFlags : Prop :=
  ∀ (s : State) (w : HostWord) (pre rest : List Stimulus), s.seq = .ready → s.handlerDue = false →
    s.stim = pre ++ .host (.write 0 w) :: rest → (∀ y ∈ pre, inputWaits s y) → (∀ r ∈ hostRows, w &&& r.2 ≠ r.1) →
    step s = .next { s with cplPulse := none, hostOut := none, stim := pre ++ rest, errIllCmd := true }

/-- The model's choice: R35 and R236 say only that no host access exists while `SEQ` is not `Ready`; here an access offered then stays in
the list and waits (log 7, DEDUCED), and a step with nothing to take answers the same state (log 6, DESIGN CHOICE). -/
def Obligations.HostAccessWaitsDuringDelay : Prop :=
  ∀ s : State, s.seq ≠ .ready → s.handlerDue = false → s.stim.all Stimulus.isHost = true →
    step s = .next { s with cplPulse := none, hostOut := none }

/-- R94: each step of `wait_idle` reads `STAT`; it is over when a read shows `Idle` (the step itself needs `SEQ` = `Ready`), else it is
repeated. The model's choices: after a failing read the environment has its next input before `wait_idle` reads again, and with none
to take it reads again at once (log 24); inputs that wait stay in the list (logs 4 and 22). -/
def Obligations.WaitIdlePollsStat : Prop :=
  ∀ (s : State) (pre rest : List Stimulus), s.seq = .ready → s.handlerDue = false → s.stim = pre ++ .host .waitIdle :: rest →
    (∀ y ∈ pre, inputWaits s y) →
    (s.phase = .idle →
      step s = .next { s with cplPulse := none, hostOut := some (.register s.stat), stim := pre ++ rest }) ∧
    (s.phase ≠ .idle → (∀ y ∈ rest, y.isHost = true ∨ y = .delayDone) →
      step s = .next { s with
        cplPulse := none, hostOut := some (.register s.stat), stim := .host .waitIdle :: (pre ++ rest) }) ∧
    (∀ mid y post, s.phase ≠ .idle → rest = mid ++ y :: post → (∀ z ∈ mid, z.isHost = true ∨ z = .delayDone) →
      y.isHost = false → y ≠ .delayDone →
      step s = .next { s with
        cplPulse := none, hostOut := some (.register s.stat), stim := y :: .host .waitIdle :: (pre ++ mid ++ post) })

/-- R120, R197: a raise sets `EVPEND`, whatever host access waits before it; one that comes before the pending event is served merges
with it. The model's choice (log 18, DEDUCED): a merged event's answers are those of the later raise. -/
def Obligations.ByteEventsRaiseAndMerge : Prop :=
  (∀ (s : State) (early : Bool) (w : BitVec 2) (b : Option Byte) (pre rest : List Stimulus), s.handlerDue = false →
    s.stim = pre ++ .byteEvent early w b :: rest → (∀ y ∈ pre, inputWaits s y) →
    step s = .next { s with
      cplPulse := none, hostOut := none, stim := pre ++ rest, evPend := true, ansStatus := some w, ansData := b }) ∧
  (∀ (s : State) (w : BitVec 2) (b : Option Byte) (pre rest : List Stimulus), s.evPend = true →
    s.stim = pre ++ .byteEvent true w b :: rest → (∀ y ∈ pre, inputWaits s y) →
    step s = .next { s with cplPulse := none, hostOut := none, stim := pre ++ rest, ansStatus := some w, ansData := b })

/-- R198(d), R220, R221, R38: the reset input overrides everything, at any time, emits no controller command, and leaves the values
R38 gives. The controller is not reset: all it was told stands, kept in the model's field `bcPast` (log 27). What R38 leaves
unspecified is not stated here. -/
def Obligations.ResetInputGivesResetState : Prop :=
  ∀ (s : State) (pre rest : List Stimulus), s.stim = pre ++ .reset :: rest → (∀ y ∈ pre, inputWaits s y) →
    ∃ t, step s = .next t ∧ t.bcTold = s.bcTold ∧ t.phase = .idle ∧ t.wrem = 0#8 ∧ t.rrem = 0#8 ∧ t.cpl = 0#4 ∧ t.tail = false ∧ t.seq = .ready ∧
      t.errBusyStart = false ∧ t.errBadDesc = false ∧ t.errIllCmd = false ∧ t.evPend = false ∧ t.bcTrace = [] ∧
      t.cplPulse = none ∧ t.stim = pre ++ rest

/-- Log 1 and log 2, the model's choice where R38 says "unspecified": registers 0, no byte of a buffer has a value. -/
def Obligations.ResetChosenValues : Prop :=
  ∀ (s : State) (pre rest : List Stimulus), s.stim = pre ++ .reset :: rest → (∀ y ∈ pre, inputWaits s y) →
    ∃ t, step s = .next t ∧ t.taddr = 0#7 ∧ t.wptr = 0#8 ∧ t.rptr = 0#8 ∧ t.staged = Descriptor.zero ∧
      t.resTemp = 0#32 ∧ t.resThyst = 0#16 ∧ t.resTos = 0#16 ∧ t.dly = 0 ∧
      (∀ a, Memory.read a t.txbuf = none ∧ Memory.read a t.rxbuf = none)

/-! ## Starts -/

/-- R160, R192: an operation that would start a transaction while one is live sets `ERR_BUSY_START` and changes nothing else;
`TXBUF` and `SEQ` stay, and the delay step still ends its delay (R168). `CHAIN` never sets the flag.
`DLY` is left free (log 14). -/
def Obligations.StartWhileLiveOnlyFlags : Prop :=
  (∀ (s : State) (i : Instr), s.phase.live = true → s.seq = .ready →
    (i = .start ∨ i = .powerUp ∨ i = .powerDown ∨ i = .startConv ∨ i = .readMeas ∨ (∃ which, i = .readLimit which) ∨
      ∃ which v, i = .writeLimit which v) →
    exec i s = .next { s with errBusyStart := true }) ∧
  (∀ s : State, s.phase.live = true → s.seq ≠ .ready →
    ∃ d n, exec .delayDone s = .next { s with errBusyStart := true, seq := .ready, dly := d, draws := n }) ∧
  (∀ s t : State, exec .cplChain s = .next t → t.errBusyStart = s.errBusyStart)

/-- R130, R193: `START` of a bad descriptor sets `ERR_BAD_DESC` and changes nothing else. -/
def Obligations.StartRefusesBadDescriptor : Prop :=
  ∀ s : State, s.phase.live = false → s.seq = .ready →
    ((s.sWcnt = 0#8 ∧ s.sRcnt = 0#8) ∨
     (0 < s.sWcnt.toNat ∧ 256 < s.sWptr.toNat + s.sWcnt.toNat) ∨
     (0 < s.sRcnt.toNat ∧ 256 < s.sRptr.toNat + s.sRcnt.toNat) ∨
     (s.sCpl.getLsbD 3 = true ∧ 5 ≤ (s.sCpl.extractLsb' 0 3).toNat)) →
    exec .start s = .next { s with errBadDesc := true }

/-- R130, R131: `START` of a good descriptor resets the controller, stores the staged descriptor, arms `TAIL`, and starts the write
phase if there is one, else the read phase. -/
def Obligations.StartStoresAndStarts : Prop :=
  ∀ s : State, s.phase.live = false → s.seq = .ready →
    ¬ (s.sWcnt = 0#8 ∧ s.sRcnt = 0#8) →
    (0 < s.sWcnt.toNat → s.sWptr.toNat + s.sWcnt.toNat ≤ 256) →
    (0 < s.sRcnt.toNat → s.sRptr.toNat + s.sRcnt.toNat ≤ 256) →
    (s.sCpl.getLsbD 3 = true → (s.sCpl.extractLsb' 0 3).toNat ≤ 4) →
    exec .start s = .next { s with
      taddr := s.sTaddr
      wptr := s.sWptr
      wrem := s.sWcnt
      rptr := s.sRptr
      rrem := s.sRcnt
      cpl := s.sCpl
      tail := true
      phase := if 0 < s.sWcnt.toNat then .writing else .reading
      own := ⟨s.sTaddr, s.sWptr, s.sWcnt, s.sRptr, s.sRcnt, s.sCpl⟩
      bcTrace := s.bcTrace ++
        [sent 0x200#12,
         sent (if 0 < s.sWcnt.toNat then 0x300#12 + s.sTaddr.setWidth 12 else 0x400#12 + s.sTaddr.setWidth 12)] }

/-- R161, R111: `CONFIGURE` forwards the mode in every `PHASE` and changes nothing else; its word is `0x01000000` + mode. -/
def Obligations.ConfigureForwardsMode : Prop :=
  (∀ mode : Byte, encode (.configure mode) = .host (0x01000000#32 + mode.setWidth 32)) ∧
  (∀ (s : State) (mode : Byte), s.seq = .ready →
    exec (.configure mode) s = .next { s with bcTrace := s.bcTrace ++ [sent (0x100#12 + mode.setWidth 12)] })

/-- R160, R162, R163, R164, R167: a write-only sensor operation puts its bytes at `TXBUF[0..]`, and starts one transaction that
sends them to the device, with no continuation. -/
def Obligations.SensorWritesStartOneTransaction : Prop :=
  ∀ (s : State) (i : Instr) (bytes : List Byte), s.phase.live = false → s.seq = .ready →
    ((i = .powerUp ∧ bytes = [Config.ptrConfig, Config.cfgPowerUp]) ∨
     (i = .powerDown ∧ bytes = [Config.ptrConfig, Config.cfgPowerDown]) ∨
     (i = .startConv ∧ bytes = [Config.ptrOneshot]) ∨
     (∃ v : Int, i = .writeLimit .hysteresis v ∧ bytes = [Config.ptrThyst,
        (BitVec.ofInt 16 v).extractLsb' 4 8, (BitVec.ofInt 16 v).extractLsb' 0 4 ++ 0#4]) ∨
     (∃ v : Int, i = .writeLimit .overset v ∧ bytes = [Config.ptrTos,
        (BitVec.ofInt 16 v).extractLsb' 4 8, (BitVec.ofInt 16 v).extractLsb' 0 4 ++ 0#4])) →
    ∃ m : Memory,
      (∀ a, Memory.read a m = if a < bytes.length then bytes[a]? else Memory.read a s.txbuf) ∧
      exec i s = .next { s with
        taddr := Config.devAddr
        wptr := 0#8
        wrem := BitVec.ofNat 8 bytes.length
        rptr := 0#8
        rrem := 0#8
        cpl := 0#4
        tail := true
        phase := .writing
        own := ⟨Config.devAddr, 0#8, BitVec.ofNat 8 bytes.length, 0#8, 0#8, 0#4⟩
        txbuf := m
        bcTrace := s.bcTrace ++ [sent 0x200#12, sent (0x300#12 + Config.devAddr.setWidth 12)] }

/-- R165, R166: `READ_MEAS` and `READ_LIMIT` start a one-byte pointer write and enter their delay. `DLY` is left free (log 14). -/
def Obligations.SensorReadsPointThenDelay : Prop :=
  ∀ (s : State) (i : Instr) (ptr : Byte) (q : Sequencer), s.phase.live = false → s.seq = .ready →
    ((i = .readMeas ∧ ptr = Config.ptrTemp ∧ q = .delayTemp) ∨
     (i = .readLimit .hysteresis ∧ ptr = Config.ptrThyst ∧ q = .delayHyst) ∨
     (i = .readLimit .overset ∧ ptr = Config.ptrTos ∧ q = .delayOs)) →
    ∃ (m : Memory) (d n : Nat),
      (∀ a, Memory.read a m = if a = 0 then some ptr else Memory.read a s.txbuf) ∧
      exec i s = .next { s with
        taddr := Config.devAddr
        wptr := 0#8
        wrem := 1#8
        rptr := 0#8
        rrem := 0#8
        cpl := 0#4
        tail := true
        phase := .writing
        own := ⟨Config.devAddr, 0#8, 1#8, 0#8, 0#8, 0#4⟩
        seq := q
        dly := d
        draws := n
        txbuf := m
        bcTrace := s.bcTrace ++ [sent 0x200#12, sent (0x300#12 + Config.devAddr.setWidth 12)] }

/-- R168, R227: when the delay ends with no transaction live, the two-byte read starts, with the decode that `SEQ` named.
`DLY` is left free (log 14). -/
def Obligations.DelayDoneStartsTheRead : Prop :=
  ∀ (s : State) (c : BitVec 4), s.phase.live = false →
    ((s.seq = .delayTemp ∧ c = 0b1001#4) ∨ (s.seq = .delayHyst ∧ c = 0b1010#4) ∨ (s.seq = .delayOs ∧ c = 0b1011#4)) →
    ∃ d n, exec .delayDone s = .next { s with
      taddr := Config.devAddr
      wptr := 0#8
      wrem := 0#8
      rptr := 0#8
      rrem := 2#8
      cpl := c
      tail := true
      phase := .reading
      own := ⟨Config.devAddr, 0#8, 0#8, 0#8, 2#8, c⟩
      seq := .ready
      dly := d
      draws := n
      bcTrace := s.bcTrace ++ [sent 0x200#12, sent (0x400#12 + Config.devAddr.setWidth 12)] }

/-! ## Bus Controller commands -/

/-- R111 to R116, R119, R121: each answerless command appends its word to `BCTRACE` and changes nothing else. -/
def Obligations.BusCommandsAppendTheirWord : Prop :=
  ∀ (s : State) (i : Instr) (w : BusWord),
    ((∃ m : Byte, i = .bcConfigure m ∧ w = 0x100#12 + m.setWidth 12) ∨
     (i = .bcReset ∧ w = 0x200#12) ∨
     (∃ a : Address, i = .bcStartWrite a ∧ w = 0x300#12 + a.setWidth 12) ∨
     (∃ a : Address, i = .bcStartRead a ∧ w = 0x400#12 + a.setWidth 12) ∨
     (i = .bcAck ∧ w = 0x500#12) ∨
     (i = .bcMarkLast ∧ w = 0x600#12) ∨
     (∃ b : Byte, i = .bcWriteData b ∧ w = 0x900#12 + b.setWidth 12)) →
    exec i s = .next { s with bcTrace := s.bcTrace ++ [sent w] }

/-- R85, R117, R118, R121: each query appends its word with the answer the environment gave in that step, and changes nothing of
the block; the answer is used up. Where no input fixed the answer it is a free value, and the query completes just so (log 5). -/
def Obligations.BusQueriesAppendTheirAnswer : Prop :=
  (∀ (s : State) (w : BitVec 2), s.ansStatus = some w →
    exec .bcStatus s = .next { s with ansStatus := none, bcTrace := s.bcTrace ++ [⟨0x700#12, .status w⟩] }) ∧
  (∀ (s : State) (b : Byte), s.ansData = some b →
    exec .bcReadData s = .next { s with ansData := none, bcTrace := s.bcTrace ++ [⟨0x800#12, .byte b⟩] }) ∧
  (∀ s : State, s.ansStatus = none →
    ∃ w n, exec .bcStatus s = .next { s with draws := n, bcTrace := s.bcTrace ++ [⟨0x700#12, .status w⟩] }) ∧
  (∀ s : State, s.ansData = none →
    ∃ b n, exec .bcReadData s = .next { s with draws := n, bcTrace := s.bcTrace ++ [⟨0x800#12, .byte b⟩] })

/-! ## The byte-event handler -/

/-- R132, R133: branch W1 sends the byte at `WPTR` whatever the controller answers, and marks after the last. -/
def Obligations.WriteEventSendsOneByte : Prop :=
  ∀ (s : State) (w : StatusWord) (b : Byte), s.evPend = true → s.phase = .writing → 0 < s.wrem.toNat →
    Memory.read s.wptr.toNat s.txbuf = some b →
    exec (.busEvent w) s = .next { s with
      evPend := false
      wptr := s.wptr + 1#8
      wrem := s.wrem - 1#8
      bcTrace := s.bcTrace ++ [sampled w, sent (0x900#12 + b.setWidth 12)] ++
        (if s.wrem = 1#8 then [sent 0x600#12] else []) }

/-- R134: branch W2. `TAIL` is spent; with bytes to read the read phase starts, with no reset; else the transaction completes, by
the completion its `CPL` names (R139). -/
def Obligations.ExhaustedWriteReadsOrCompletes : Prop :=
  ∀ (s : State) (w : StatusWord), s.evPend = true → s.phase = .writing → s.wrem = 0#8 → s.tail = true →
    (0 < s.rrem.toNat →
      exec (.busEvent w) s = .next { s with
        evPend := false
        tail := false
        phase := .reading
        bcTrace := s.bcTrace ++ [sampled w, sent (0x400#12 + s.taddr.setWidth 12)] }) ∧
    (s.rrem = 0#8 → ∀ i, decode (.completion s.cpl) = .ok i →
      exec (.busEvent w) s = exec i { s with
        evPend := false, tail := false, phase := .complete, bcTrace := s.bcTrace ++ [sampled w] })

/-- R132, R135: branch RD0 acknowledges, and marks if one byte remains; no state of the block changes. -/
def Obligations.UnprimedReadAcknowledges : Prop :=
  ∀ s : State, s.evPend = true → s.phase = .reading →
    exec (.busEvent statusUnprimed) s = .next { s with
      evPend := false
      bcTrace := s.bcTrace ++ [sampled statusUnprimed, sent 0x500#12] ++
        (if s.rrem = 1#8 then [sent 0x600#12] else []) }

/-- R136: branch RD1 counts, acknowledges, stores the byte the controller answers at `RPTR`, and marks if one byte will remain. An
answer no input fixed is any byte (log 5). -/
def Obligations.ReadEventStoresOneByte : Prop :=
  ∀ s : State, s.evPend = true → s.phase = .reading → 1 < s.rrem.toNat →
    ∃ (b : Byte) (m : Memory) (n : Nat),
      (∀ c, s.ansData = some c → b = c) ∧
      (∀ a, Memory.read a m = if a = s.rptr.toNat then some b else Memory.read a s.rxbuf) ∧
      exec (.busEvent statusFull) s = .next { s with
        evPend := false
        rrem := s.rrem - 1#8
        rptr := s.rptr + 1#8
        rxbuf := m
        ansData := none
        draws := n
        bcTrace := s.bcTrace ++ [sampled statusFull, sent 0x500#12, received b] ++
          (if s.rrem = 2#8 then [sent 0x600#12] else []) }

/-- R137: branch RD2 takes the last byte without `ack` or mark, stores it at `RPTR`, and then completes, by the completion its `CPL`
names (R139). -/
def Obligations.LastReadEventCompletes : Prop :=
  ∀ s : State, s.evPend = true → s.phase = .reading → s.rrem = 1#8 →
    ∃ (b : Byte) (m : Memory) (n : Nat),
      (∀ c, s.ansData = some c → b = c) ∧
      (∀ a, Memory.read a m = if a = s.rptr.toNat then some b else Memory.read a s.rxbuf) ∧
      ∀ i, decode (.completion s.cpl) = .ok i →
        exec (.busEvent statusFull) s = exec i { s with
          evPend := false
          rrem := 0#8
          rptr := s.rptr + 1#8
          rxbuf := m
          phase := .complete
          ansData := none
          draws := n
          bcTrace := s.bcTrace ++ [sampled statusFull, received b] }

/-- R137, R172: a two-byte read into `RXBUF[0..1]` with `DECODE_TEMP` decodes the byte stored in the same step. -/
def Obligations.LastReadEventDecodes : Prop :=
  ∀ (s : State) (b0 b1 : Byte), s.evPend = true → s.phase = .reading → s.rrem = 1#8 → s.rptr = 1#8 → s.ansData = some b1 →
    Memory.read 0 s.rxbuf = some b0 → s.cpl = 0b1001#4 →
    ∃ t, exec (.busEvent statusFull) s = .next t ∧ t.phase = .idle ∧ t.cplPulse = some 1#3 ∧
      Memory.read 1 t.rxbuf = some b1 ∧ t.resThyst = s.resThyst ∧ t.resTos = s.resTos ∧
      t.resTemp.toInt = 625 * ((b0 ++ b1).extractLsb' 4 12).toInt

/-- R138: an event that enables no branch is consumed: `EVPEND` cleared, `BC_STATUS` in the trace, nothing else. -/
def Obligations.UnmatchedEventIsConsumed : Prop :=
  ∀ (s : State) (w : StatusWord), s.evPend = true →
    (s.phase = .idle ∨ (s.phase = .reading ∧ w.phase = .write) ∨
      (s.phase = .writing ∧ s.wrem = 0#8 ∧ s.tail = false) ∨
      (s.phase = .reading ∧ w.phase = .read ∧ w.bufferFull = true ∧ s.rrem = 0#8)) →
    exec (.busEvent w) s = .next { s with evPend := false, bcTrace := s.bcTrace ++ [sampled w] }

/-- U13, log 2: a byte without a value stops the step that would read it: branch W1, a decode, a host read. -/
def Obligations.UnwrittenByteStopsTheStep : Prop :=
  (∀ (s : State) (w : StatusWord), s.evPend = true → s.phase = .writing → 0 < s.wrem.toNat →
    Memory.read s.wptr.toNat s.txbuf = none → exec (.busEvent w) s = .fault (.unwrittenTx s.wptr.toNat)) ∧
  (∀ (s : State) (i : Instr), s.phase = .complete → (i = .cplDecodeTemp ∨ i = .cplDecodeThyst ∨ i = .cplDecodeTos) →
    (Memory.read 0 s.rxbuf = none → exec i s = .fault (.unwrittenRx 0)) ∧
    (∀ b, Memory.read 0 s.rxbuf = some b → Memory.read 1 s.rxbuf = none → exec i s = .fault (.unwrittenRx 1))) ∧
  (∀ (s : State) (a : Byte), Memory.read a.toNat s.txbuf = none → hostAccess (.readTx a) s = .fault (.unwrittenTx a.toNat)) ∧
  (∀ (s : State) (a : Byte), s.ownsRx a = false → Memory.read a.toNat s.rxbuf = none →
    hostAccess (.readRx a) s = .fault (.unwrittenRx a.toNat))

/-! ## Completion -/

/-- R139, R140: completion with no continuation retires without a pulse, with `NOTIFY` also pulses. -/
def Obligations.PlainCompletionsRetire : Prop :=
  ∀ s : State, s.phase = .complete →
    (∀ id, exec (.cplNone id) s = .next { s with phase := .idle, cpl := 0#4, tail := false }) ∧
    exec .cplNotify s = .next { s with phase := .idle, cpl := 0#4, tail := false, cplPulse := some 0#3 }

/-- R171, R172, R173, R174, R178, R209: every pair of bytes decodes; each decode writes its own slot only, pulses, and retires. -/
def Obligations.DecodeCompletionsWriteTheirSlot : Prop :=
  ∀ (s : State) (b0 b1 : Byte), s.phase = .complete → Memory.read 0 s.rxbuf = some b0 → Memory.read 1 s.rxbuf = some b1 →
    (∃ r : BitVec 32, r.toInt = Int.tdiv (((b0 ++ b1).extractLsb' 4 12).toInt * 10000) 16 ∧
      exec .cplDecodeTemp s = .next { s with
        phase := .idle, cpl := 0#4, tail := false, cplPulse := some 1#3, resTemp := r }) ∧
    exec .cplDecodeThyst s = .next { s with
      phase := .idle, cpl := 0#4, tail := false, cplPulse := some 2#3
      resThyst := ((b0 ++ b1).extractLsb' 4 12).signExtend 16 } ∧
    exec .cplDecodeTos s = .next { s with
      phase := .idle, cpl := 0#4, tail := false, cplPulse := some 3#3
      resTos := ((b0 ++ b1).extractLsb' 4 12).signExtend 16 }

/-- R139, R141: `CHAIN` starts the staged descriptor and is not retired; a bad one is flagged, and the old transaction retires.
Either way it pulses. -/
def Obligations.ChainStartsTheStagedDescriptor : Prop :=
  ∀ s : State, s.phase = .complete →
    (badDesc s.staged = true →
      exec .cplChain s = .next { s with
        errBadDesc := true, phase := .idle, cpl := 0#4, tail := false, cplPulse := some 4#3 }) ∧
    (badDesc s.staged = false →
      exec .cplChain s = .next { s with
        taddr := s.sTaddr
        wptr := s.sWptr
        wrem := s.sWcnt
        rptr := s.sRptr
        rrem := s.sRcnt
        cpl := s.sCpl
        tail := true
        phase := if 0 < s.sWcnt.toNat then .writing else .reading
        own := s.staged
        cplPulse := some 4#3
        bcTrace := s.bcTrace ++
          [sent 0x200#12,
           sent (if 0 < s.sWcnt.toNat then 0x300#12 + s.sTaddr.setWidth 12 else 0x400#12 + s.sTaddr.setWidth 12)] })

/-- R139, R140, R147, R201: a step that pulses ran the continuation that the live `CPL` registered, of a transaction that was not
idle; after it no continuation is registered, unless `CHAIN` started the staged descriptor. -/
def Obligations.PulseMeansOneContinuationRan : Prop :=
  ∀ (s t : State) (k : BitVec 3), step s = .next t → t.cplPulse = some k →
    s.phase ≠ .idle ∧ cplSet s.cpl = true ∧ cplId s.cpl = k ∧
    ((t.phase = .idle ∧ cplSet t.cpl = false) ∨ (k = 4#3 ∧ t.phase.live = true ∧ t.own = s.staged))

/-! ## Frames -/

/-- R61, R62, R202: what a handler step leaves: everything the foreground owns; every `RXBUF` byte but the one at `RPTR`, and that
one too unless a byte was received; `ERR_BUSY_START`; and, with no continuation registered, the results, `ERR_BAD_DESC` and the
pulse. -/
def Obligations.HandlerStepFrame : Prop :=
  ∀ (s t : State) (w : StatusWord), exec (.busEvent w) s = .next t →
    sameForeground s t ∧ t.errBusyStart = s.errBusyStart ∧ t.ansStatus = s.ansStatus ∧
    (∀ a, a ≠ s.rptr.toNat → Memory.read a t.rxbuf = Memory.read a s.rxbuf) ∧
    ((s.phase ≠ .reading ∨ w.phase = .write ∨ w.bufferFull = false) → t.rxbuf = s.rxbuf) ∧
    (cplSet s.cpl = false → sameResults s t ∧ t.errBadDesc = s.errBadDesc ∧ t.cplPulse = s.cplPulse)

/-- R139 to R142, R172 to R174: what a completion leaves: everything the foreground owns, every buffer byte, `ERR_BUSY_START`,
and every result slot but its own; a decode, `NOTIFY` or none starts nothing. -/
def Obligations.CompletionFrame : Prop :=
  ∀ (s t : State) (i : Instr), exec i s = .next t →
    (i = .cplNotify ∨ i = .cplDecodeTemp ∨ i = .cplDecodeThyst ∨ i = .cplDecodeTos ∨ i = .cplChain ∨ ∃ id, i = .cplNone id) →
    sameForeground s t ∧ t.rxbuf = s.rxbuf ∧ t.errBusyStart = s.errBusyStart ∧ t.evPend = s.evPend ∧
    t.ansStatus = s.ansStatus ∧ t.ansData = s.ansData ∧ t.draws = s.draws ∧
    (i ≠ .cplDecodeTemp → t.resTemp = s.resTemp) ∧ (i ≠ .cplDecodeThyst → t.resThyst = s.resThyst) ∧
    (i ≠ .cplDecodeTos → t.resTos = s.resTos) ∧
    (i ≠ .cplChain →
      t.taddr = s.taddr ∧ t.wptr = s.wptr ∧ t.wrem = s.wrem ∧ t.rptr = s.rptr ∧ t.rrem = s.rrem ∧
      t.bcTrace = s.bcTrace ∧ t.errBadDesc = s.errBadDesc ∧ t.own = s.own)

/-- R160, R161, R131, R168: what a host command or the delay step leaves: the staged registers, the results, `RXBUF`, `EVPEND`, the
other error flags, and every `TXBUF` byte at or above the number of bytes the operation sends (none for `START`, `CONFIGURE` and
the delay step). -/
def Obligations.HostCommandFrame : Prop :=
  ∀ (s t : State) (i : Instr) (n : Nat), exec i s = .next t →
    (((∃ m, i = .configure m) ∧ n = 0) ∨ (i = .start ∧ n = 0) ∨ (i = .delayDone ∧ n = 0) ∨ (i = .startConv ∧ n = 1) ∨
      (i = .readMeas ∧ n = 1) ∨ ((∃ which, i = .readLimit which) ∧ n = 1) ∨ (i = .powerUp ∧ n = 2) ∨ (i = .powerDown ∧ n = 2) ∨
      ((∃ which v, i = .writeLimit which v) ∧ n = 3)) →
    sameStaged s t ∧ sameResults s t ∧ t.rxbuf = s.rxbuf ∧ t.evPend = s.evPend ∧ t.errIllCmd = s.errIllCmd ∧
    (i ≠ .start → t.errBadDesc = s.errBadDesc) ∧ t.cplPulse = s.cplPulse ∧ t.hostOut = s.hostOut ∧ t.stim = s.stim ∧
    t.ansStatus = s.ansStatus ∧ t.ansData = s.ansData ∧ t.bcPast = s.bcPast ∧
    (∀ a, n ≤ a → Memory.read a t.txbuf = Memory.read a s.txbuf)

/-- R35, R75, R33: a host access that is no command leaves the live descriptor, the engine, `SEQ`, the flags, the results and the
trace; only the byte it names can change in a buffer. -/
def Obligations.HostAccessFrame : Prop :=
  ∀ (s t : State) (op : HostOp), hostAccess op s = .next t →
    sameLive s t ∧ sameResults s t ∧ t.seq = s.seq ∧ t.dly = s.dly ∧ t.evPend = s.evPend ∧ t.bcTrace = s.bcTrace ∧
    t.bcPast = s.bcPast ∧ t.errBusyStart = s.errBusyStart ∧ t.errBadDesc = s.errBadDesc ∧ t.errIllCmd = s.errIllCmd ∧
    (∀ a : Byte, (∀ b, op ≠ .writeTx a b) → Memory.read a.toNat t.txbuf = Memory.read a.toNat s.txbuf) ∧
    (∀ a : Byte, (∀ b, op ≠ .writeRx a b) → Memory.read a.toNat t.rxbuf = Memory.read a.toNat s.rxbuf)

/-! ## The host port -/

/-- R34: the fields of `STAT`, and zeros elsewhere; a read has no side effect, a write no effect; the transaction is live exactly
when `PHASE` reads 1 or 2. -/
def Obligations.StatFields : Prop :=
  ∀ s : State,
    s.stat.extractLsb' 0 2 = (match s.phase with | .idle => 0#2 | .writing => 1#2 | .reading => 2#2 | .complete => 3#2) ∧
    s.stat.getLsbD 2 = s.tail ∧
    s.stat.getLsbD 3 = s.cpl.getLsbD 3 ∧
    s.stat.extractLsb' 4 2 = (match s.seq with | .ready => 0#2 | .delayTemp => 1#2 | .delayHyst => 2#2 | .delayOs => 3#2) ∧
    s.stat.getLsbD 6 = s.evPend ∧
    s.stat.getLsbD 7 = false ∧
    s.stat.getLsbD 8 = s.errBusyStart ∧
    s.stat.getLsbD 9 = s.errBadDesc ∧
    s.stat.getLsbD 10 = s.errIllCmd ∧
    s.stat.extractLsb' 11 21 = 0#21 ∧
    hostAccess (.read 1) s = .next { s with hostOut := some (.register s.stat) } ∧
    (∀ v, hostAccess (.write 1 v) s = .next s) ∧
    (s.phase.live = true ↔ s.stat.extractLsb' 0 2 = 1#2 ∨ s.stat.extractLsb' 0 2 = 2#2)

/-- R33: a write of a staged register keeps the bits it has; a write of any other register but `CMD` is ignored. -/
def Obligations.RegisterWritesKeepTheirBits : Prop :=
  ∀ (s : State) (n : Nat) (v : HostWord), n ≠ 0 →
    ∃ t, hostAccess (.write n v) s = .next t ∧
      t.sTaddr = (if n = 2 then v.extractLsb' 0 7 else s.sTaddr) ∧
      t.sWptr = (if n = 3 then v.extractLsb' 0 8 else s.sWptr) ∧
      t.sWcnt = (if n = 4 then v.extractLsb' 0 8 else s.sWcnt) ∧
      t.sRptr = (if n = 5 then v.extractLsb' 0 8 else s.sRptr) ∧
      t.sRcnt = (if n = 6 then v.extractLsb' 0 8 else s.sRcnt) ∧
      t.sCpl = (if n = 7 then v.extractLsb' 0 4 else s.sCpl) ∧
      { t with sTaddr := s.sTaddr, sWptr := s.sWptr, sWcnt := s.sWcnt, sRptr := s.sRptr, sRcnt := s.sRcnt, sCpl := s.sCpl } = s

/-- R33: a register reads its own bits, and 0 above them; `CMD` and numbers above 16 read 0. A read changes nothing. -/
def Obligations.RegisterReadsPadWithZeros : Prop :=
  ∀ (s : State) (n : Nat),
    (∃ v : HostWord, hostAccess (.read n) s = .next { s with hostOut := some (.register v) } ∧
      v.toNat =
        (match n with
        | 1 => s.stat.toNat
        | 2 => s.sTaddr.toNat
        | 3 => s.sWptr.toNat
        | 4 => s.sWcnt.toNat
        | 5 => s.sRptr.toNat
        | 6 => s.sRcnt.toNat
        | 7 => s.sCpl.toNat
        | 8 => s.resTemp.toNat
        | 9 => s.resThyst.toNat
        | 10 => s.resTos.toNat
        | 11 => s.taddr.toNat
        | 12 => s.wptr.toNat
        | 13 => s.wrem.toNat
        | 14 => s.rptr.toNat
        | 15 => s.rrem.toNat
        | 16 => s.cpl.toNat
        | _ => 0))

/-- R61, R62, R66, R68: the buffers as the host sees them. Inside the window of the live descriptor `own` (log 15) a write of `TXBUF` and
any access of `RXBUF` are refused, a read of `TXBUF` is not; outside it, and at any time when no transaction is live, a written byte
reads back and the other bytes stay. -/
def Obligations.HostBufferAccess : Prop :=
  ∀ (s : State) (a b : Byte),
    (¬ (s.phase.live = true ∧ s.own.wptr.toNat ≤ a.toNat ∧ a.toNat < s.own.wptr.toNat + s.own.wcnt.toNat) →
      ∃ m : Memory, (∀ c, Memory.read c m = if c = a.toNat then some b else Memory.read c s.txbuf) ∧
        hostAccess (.writeTx a b) s = .next { s with txbuf := m }) ∧
    (s.phase.live = true → s.own.wptr.toNat ≤ a.toNat → a.toNat < s.own.wptr.toNat + s.own.wcnt.toNat →
      hostAccess (.writeTx a b) s = .refused (.ownedTx a)) ∧
    (Memory.read a.toNat s.txbuf = some b → hostAccess (.readTx a) s = .next { s with hostOut := some (.byte b) }) ∧
    (¬ (s.phase.live = true ∧ s.own.rptr.toNat ≤ a.toNat ∧ a.toNat < s.own.rptr.toNat + s.own.rcnt.toNat) →
      (∃ m : Memory, (∀ c, Memory.read c m = if c = a.toNat then some b else Memory.read c s.rxbuf) ∧
        hostAccess (.writeRx a b) s = .next { s with rxbuf := m }) ∧
      (Memory.read a.toNat s.rxbuf = some b → hostAccess (.readRx a) s = .next { s with hostOut := some (.byte b) })) ∧
    (s.phase.live = true → s.own.rptr.toNat ≤ a.toNat → a.toNat < s.own.rptr.toNat + s.own.rcnt.toNat →
      hostAccess (.writeRx a b) s = .refused (.ownedRx a) ∧ hostAccess (.readRx a) s = .refused (.ownedRx a))

/-! ## Encode, decode, scale -/

/-- R170, R89: the encoded limit is the value's low 12 bits, left-justified, most significant byte first; bits 15:12 are lost, and in
the 12-bit range nothing is. -/
def Obligations.EncodedLimitIsLeftJustified : Prop :=
  (∀ v : Int,
    (encodeLimit v).1 = ((BitVec.ofInt 16 v) <<< 4).extractLsb' 8 8 ∧ (encodeLimit v).2 = ((BitVec.ofInt 16 v) <<< 4).extractLsb' 0 8 ∧
    (encodeLimit v).1 = (BitVec.ofInt 16 v).extractLsb' 4 8 ∧ (encodeLimit v).2 = (BitVec.ofInt 16 v).extractLsb' 0 4 ++ 0#4 ∧
    (encodeLimit v).1 ++ (encodeLimit v).2 = (BitVec.ofInt 16 v).extractLsb' 0 12 ++ 0#4) ∧
  (∀ v u : Int, (BitVec.ofInt 16 v).extractLsb' 0 12 = (BitVec.ofInt 16 u).extractLsb' 0 12 → encodeLimit v = encodeLimit u) ∧
  (∀ v u : Int, -2048 ≤ v → v ≤ 2047 → -2048 ≤ u → u ≤ 2047 → encodeLimit v = encodeLimit u → v = u)

/-- R171: `Decode12` is the sign extension of the top 12 bits; the low nibble does not matter; the result fits 12 bits. -/
def Obligations.DecodeIsSignExtendedTopTwelve : Prop :=
  ∀ b0 b1 : Byte, decode12 b0 b1 = ((b0 ++ b1).extractLsb' 4 12).signExtend 16 ∧
    (∀ c : Byte, c.extractLsb' 4 4 = b1.extractLsb' 4 4 → decode12 b0 c = decode12 b0 b1) ∧
    (decode12 b0 b1).toInt =
      (if b0.getLsbD 7 then -4096 else 0) + (16 * b0.toNat + (b1.extractLsb' 4 4).toNat : Int) ∧
    -2048 ≤ (decode12 b0 b1).toInt ∧ (decode12 b0 b1).toInt ≤ 2047

/-- R177: decoding an encoded limit gives it back in the 12-bit range, and its low 12 bits sign-extended outside it. -/
def Obligations.LimitRoundTrip : Prop :=
  ∀ v : Int,
    decode12 (encodeLimit v).1 (encodeLimit v).2 = ((BitVec.ofInt 16 v).extractLsb' 0 12).signExtend 16 ∧
    (-2048 ≤ v → v ≤ 2047 → (decode12 (encodeLimit v).1 (encodeLimit v).2).toInt = v) ∧
    (v < -2048 ∨ 2047 < v → (decode12 (encodeLimit v).1 (encodeLimit v).2).toInt ≠ v)

/-- R175: for every integer the division by 16 has no remainder, so truncating and flooring agree; for every pair of bytes the stored
temperature is 625 times the decoded value, and the 32-bit product does not overflow (R172, R176(e)). -/
def Obligations.TemperatureScalingIsExact : Prop :=
  (∀ t : Int, Int.tdiv (t * 10000) 16 = 625 * t ∧ Int.fdiv (t * 10000) 16 = 625 * t ∧ Int.tmod (t * 10000) 16 = 0) ∧
  (∀ b0 b1 : Byte,
    (scaleTemp (decode12 b0 b1)).toInt = 625 * (decode12 b0 b1).toInt ∧
    (scaleTemp (decode12 b0 b1)).toInt = Int.tdiv ((decode12 b0 b1).toInt * 10000) 16 ∧
    -2147483648 ≤ (decode12 b0 b1).toInt * 10000 ∧ (decode12 b0 b1).toInt * 10000 ≤ 2147483647 ∧
    -1280000 ≤ (scaleTemp (decode12 b0 b1)).toInt ∧ (scaleTemp (decode12 b0 b1)).toInt ≤ 1279375)

/-! ## Memory -/

/-- R61, R62: in a buffer a byte written reads back and every other index reads as before; the canonical form is kept; and two
canonical buffers that read alike are the same data. -/
def Obligations.MemoryReadsBackAndIsCanonical : Prop :=
  (∀ (m : Memory) (a c : Nat) (b : Byte), Memory.wf m = true → a < 256 →
    Memory.wf (Memory.write a b m) = true ∧
    Memory.read c (Memory.write a b m) = if c = a then some b else Memory.read c m) ∧
  (∀ m n : Memory, Memory.wf m = true → Memory.wf n = true → (∀ a, Memory.read a m = Memory.read a n) → m = n)

/-! ## Invariants and whole-machine rules -/

/-- R26, R148: every step keeps I2 to I4 and I6, no reserved continuation goes live, and both buffers stay canonical. -/
def Obligations.StepKeepsEngineInvariant : Prop :=
  ∀ s t : State, s.Inv → step s = .next t → t.Inv

/-- R38, R26: the state after reset meets the invariants. -/
def Obligations.ResetMeetsInvariants : Prop := State.reset.Inv ∧ State.reset.WindowInv

/-- R20, R22, R68: every step keeps the live registers inside the descriptor that was accepted. -/
def Obligations.StepKeepsOwnershipWindow : Prop :=
  ∀ s t : State, s.WindowInv → step s = .next t → t.WindowInv

/-- R28, R61, R62, R68: the engine sends only bytes it owns and stores only in bytes it owns. -/
def Obligations.EngineStaysInItsWindow : Prop :=
  ∀ (s t : State) (w : StatusWord), s.Inv → s.WindowInv → exec (.busEvent w) s = .next t →
    (s.phase = .writing → 0 < s.wrem.toNat → s.ownsTx s.wptr = true) ∧
    (∀ a : Byte, Memory.read a.toNat t.rxbuf ≠ Memory.read a.toNat s.rxbuf → s.ownsRx a = true)

/-- R22, R26(I5), R148: a count that a handler step changes was not zero and goes down by one, in a completing step too, unless
`CHAIN` is registered and has loaded the staged counts. -/
def Obligations.CountersNeverGoNegative : Prop :=
  ∀ (s t : State) (w : StatusWord), exec (.busEvent w) s = .next t →
    ((t.wrem = s.wrem ∨ (0 < s.wrem.toNat ∧ t.wrem.toNat + 1 = s.wrem.toNat)) ∧
      (t.rrem = s.rrem ∨ (0 < s.rrem.toNat ∧ t.rrem.toNat + 1 = s.rrem.toNat))) ∨
    (cplSet s.cpl = true ∧ cplId s.cpl = 4#3 ∧ t.own = s.staged ∧ t.wrem = s.sWcnt ∧ t.rrem = s.sRcnt)

/-- R146: for every controller, the read branches change something only in `Reading`, `Reading` is entered only with `WREM` = 0, and
from a state that meets the invariant no byte is received before `WREM` is 0. -/
def Obligations.WritesDrainBeforeReads : Prop :=
  (∀ (s t : State) (w : StatusWord), exec (.busEvent w) s = .next t → t.rxbuf ≠ s.rxbuf → s.phase = .reading ∧ (s.Inv → s.wrem = 0#8)) ∧
  (∀ s t : State, step s = .next t → t.phase = .reading → s.phase = .reading ∨ t.wrem = 0#8)

/-- R31, R37: an error flag is cleared only by reset. -/
def Obligations.ErrorFlagsAreSticky : Prop :=
  ∀ s t : State, ¬ comesFirst s .reset → step s = .next t →
    (s.errBusyStart = true → t.errBusyStart = true) ∧ (s.errBadDesc = true → t.errBadDesc = true) ∧
    (s.errIllCmd = true → t.errIllCmd = true)

/-- R32, R121: the trace only grows, but for reset; what was sent before the last reset stays in `bcPast` (log 27). -/
def Obligations.TraceOnlyGrows : Prop :=
  ∀ s t : State, ¬ comesFirst s .reset → step s = .next t → t.bcPast = s.bcPast ∧ ∃ es, t.bcTrace = s.bcTrace ++ es

/-- R30, R201, R231: but for reset, a result slot changes only in the step that pulses its own decode continuation. -/
def Obligations.ResultsChangeOnlyWithTheirPulse : Prop :=
  ∀ s t : State, ¬ comesFirst s .reset → step s = .next t →
    (t.resTemp ≠ s.resTemp → t.cplPulse = some 1#3) ∧ (t.resThyst ≠ s.resThyst → t.cplPulse = some 2#3) ∧
    (t.resTos ≠ s.resTos → t.cplPulse = some 3#3)

/-- R144, R195, R230, R235: a live transaction with no event pending stays as it is, whatever the foreground does, until a byte-event or
reset comes; if none is to come it is stalled and stays so; with no input left the machine is stuck, which is no fault and no finished
run. -/
def Obligations.StallLastsUntilEventOrReset : Prop :=
  ∀ s t : State, s.phase.live = true → s.evPend = false → ¬ comesFirst s .reset →
    (∀ early w b, ¬ comesFirst s (.byteEvent early w b)) → step s = .next t →
    sameLive s t ∧ t.evPend = false ∧ t.final = false ∧
    (s.stalled = true → t.stalled = true) ∧
    (s.stim = [] → t = { s with cplPulse := none, hostOut := none })

/-- R122, R126, R138, R221: for every controller, its sequence stays in the phase of the live transaction, over the block's reset too; and but
for a reset, which abandons a sequence, a step leaves none in progress where no transaction is live, so that `BC_Quiet` alone admits
no event in `Idle`; after a step that ends a transaction `BC_End` admits none either (R126). The model's choices: the sequence is a function of all the controller was told (log 21), which is nothing before
`State.reset` (log 27, third clause), and a controller command sent on its own (log 9) is left out here. -/
def Obligations.QuietControllerIsSilentInIdle : Prop :=
  (∀ s t : State, s.Inv → s.InPhase → (s.handlerDue = true ∨ ∀ w, ¬ comesFirst s (.busCommand w)) → step s = .next t → t.InPhase) ∧
  (∀ s t : State, s.Inv → s.InPhase → s.quietWhenIdle → (s.handlerDue = true ∨ ∀ w, ¬ comesFirst s (.busCommand w)) →
    ¬ comesFirst s .reset → step s = .next t →
    t.quietWhenIdle ∧ (s.phase.live = true → t.phase.live = false → bcEnd t = false)) ∧
  (State.reset.InPhase ∧ State.reset.quietWhenIdle) ∧
  (∀ s : State, s.quietWhenIdle → s.phase.live = false → bcQuiet s = false)

/-! ## Whole transactions -/

/-- R145 under the premises R122 to R127 as the model reads them (log 21, DEDUCED: the controller's sequence is a function of all it was told,
in `sequenceOf`, `sequenceInStep` and `conformingEvent`, and `eventsOwed` counts what it calls for; that reading is the model's): each
byte-event of a conforming controller brings the live transaction one event nearer its end and leaves the sequence in step; the last
one ends it, or `CHAIN` has started the next. -/
def Obligations.ConformingEventAdvances : Prop :=
  ∀ (s t : State) (w : StatusWord), s.Inv → s.phase.live = true → sequenceInStep s = true → conformingEvent s w = true →
    exec (.busEvent w) { s with evPend := true } = .next t →
    sequenceInStep t = true ∧
    (1 < s.eventsOwed → t.own = s.own ∧ t.phase.live = true ∧ t.eventsOwed + 1 = s.eventsOwed) ∧
    (s.eventsOwed ≤ 1 → t.phase = .idle ∨ (cplId s.cpl = 4#3 ∧ t.own = s.staged))

/-- R133, R149: the write phase. Whatever the controller answers, `WREM` events send the bytes of `TXBUF` from `WPTR` in ascending
order, one a step, with one mark after the last. -/
def Obligations.WritePhaseSendsBytesInOrder : Prop :=
  ∀ (es : List (StatusWord × Byte)) (bytes : List Byte) (s : State), s.phase = .writing →
    es.length = s.wrem.toNat → bytes.length = s.wrem.toNat → 0 < s.wrem.toNat → s.wptr.toNat + s.wrem.toNat ≤ 256 →
    (∀ k, k < s.wrem.toNat → Memory.read (s.wptr.toNat + k) s.txbuf = bytes[k]?) →
    ∃ t, serveEvents es s = .next t ∧ t.phase = .writing ∧ t.wrem = 0#8 ∧ t.wptr = s.wptr + s.wrem ∧ t.rrem = s.rrem ∧
      t.rptr = s.rptr ∧ t.tail = s.tail ∧ t.cpl = s.cpl ∧ t.taddr = s.taddr ∧ t.rxbuf = s.rxbuf ∧ t.txbuf = s.txbuf ∧
      t.bcTrace = s.bcTrace ++ writeTrace es bytes

/-- R135 to R137, R149: the read phase under a conforming controller: one unprimed event, then one event a byte; the bytes are
stored from `RPTR` in ascending order, the other bytes stay, and a transaction with no continuation retires. -/
def Obligations.ReadPhaseStoresBytesInOrder : Prop :=
  ∀ (u : Byte) (bytes : List Byte) (s : State), s.phase = .reading → 0 < s.rrem.toNat → bytes.length = s.rrem.toNat →
    s.rptr.toNat + s.rrem.toNat ≤ 256 → cplSet s.cpl = false →
    ∃ t, serveEvents (readEvents u bytes) s = .next t ∧ t.phase = .idle ∧ t.rrem = 0#8 ∧ t.rptr = s.rptr + s.rrem ∧
      t.cplPulse = s.cplPulse ∧ t.txbuf = s.txbuf ∧
      (∀ k, k < bytes.length → Memory.read (s.rptr.toNat + k) t.rxbuf = bytes[k]?) ∧
      (∀ a, a < s.rptr.toNat ∨ s.rptr.toNat + bytes.length ≤ a → Memory.read a t.rxbuf = Memory.read a s.rxbuf) ∧
      t.bcTrace = s.bcTrace ++ [sampled statusUnprimed, sent 0x500#12] ++ (if s.rrem = 1#8 then [sent 0x600#12] else []) ++
        readTrace bytes

/-- R130, R131, R145, R149: a whole transaction with no continuation, from `START` to the retire: the number of byte-events it takes
and every word it sends, in order. In the write phase the controller's answers are arbitrary. -/
def Obligations.TransactionTraceAndEventCount : Prop :=
  ∀ (s : State) (ws : List (StatusWord × Byte)) (x : StatusWord × Byte) (u : Byte) (out inn : List Byte)
    (evs : List (StatusWord × Byte)),
    s.phase.live = false → s.seq = .ready → badDesc s.staged = false → cplSet s.sCpl = false →
    ws.length = s.sWcnt.toNat → out.length = s.sWcnt.toNat → inn.length = s.sRcnt.toNat →
    (∀ k, k < s.sWcnt.toNat → Memory.read (s.sWptr.toNat + k) s.txbuf = out[k]?) →
    evs = (if 0 < s.sWcnt.toNat then ws ++ [x] else []) ++ (if 0 < s.sRcnt.toNat then readEvents u inn else []) →
    evs.length = s.sWcnt.toNat + s.sRcnt.toNat + (if 0 < s.sWcnt.toNat then 1 else 0) + (if 0 < s.sRcnt.toNat then 1 else 0) ∧
    ∃ s1 t, exec .start s = .next s1 ∧ serveEvents evs s1 = .next t ∧ t.phase = .idle ∧
      (∀ k, k < inn.length → Memory.read (s.sRptr.toNat + k) t.rxbuf = inn[k]?) ∧
      t.bcTrace = s.bcTrace ++
        [sent 0x200#12,
         sent (if 0 < s.sWcnt.toNat then 0x300#12 + s.sTaddr.setWidth 12 else 0x400#12 + s.sTaddr.setWidth 12)] ++
        (if 0 < s.sWcnt.toNat then
          writeTrace ws out ++ [sampled x.1] ++
            (if 0 < s.sRcnt.toNat then [sent (0x400#12 + s.sTaddr.setWidth 12)] else [])
         else []) ++
        (if 0 < s.sRcnt.toNat then
          [sampled statusUnprimed, sent 0x500#12] ++ (if s.sRcnt = 1#8 then [sent 0x600#12] else []) ++ readTrace inn
         else [])
end

