-- ==== Sys2Proof/Laws/Encoding.lean ====
section
/-!
SUPPORT. The bits of an encoded word, and the fields read back from it (30_encoding.md R81, R83).
-/

namespace Sys2Proof

/-- A bit of a host command word (R81). -/
theorem hostWord_getLsbD (op : Byte) (which : BitVec 1) (imm : Half) (i : Nat) :
    (hostWord op which imm).getLsbD i =
      if i < 16 then imm.getLsbD i else if i = 16 then which.getLsbD 0 else if i < 24 then false else op.getLsbD (i - 24) := by
  have h : (hostWord op which imm).getLsbD i = (op ++ 0#7 ++ which ++ imm).getLsbD i := rfl
  rw [h]
  simp only [BitVec.getLsbD_append]
  by_cases h1 : i < 16
  · simp [h1]
  by_cases h2 : i = 16
  · simp [h2]
  by_cases h3 : i < 24
  · rw [if_neg h1, if_neg (by omega), if_pos (by omega), if_neg h1, if_neg h2, if_pos h3]
    simp
  · rw [if_neg h1, if_neg (by omega), if_neg (by omega), if_neg h1, if_neg h2, if_neg h3]
    congr 1

@[simp] theorem hostOpcode_hostWord (op : Byte) (which : BitVec 1) (imm : Half) : hostOpcode (hostWord op which imm) = op := by
  apply BitVec.eq_of_getLsbD_eq
  intro i hi
  simp only [hostOpcode, BitVec.getLsbD_extractLsb', hostWord_getLsbD, hi, decide_true, Bool.true_and]
  rw [if_neg (by omega), if_neg (by omega), if_neg (by omega)]
  congr 1
  omega

@[simp] theorem hostZ_hostWord (op : Byte) (which : BitVec 1) (imm : Half) : hostZ (hostWord op which imm) = 0#7 := by
  apply BitVec.eq_of_getLsbD_eq
  intro i hi
  simp only [hostZ, BitVec.getLsbD_extractLsb', hostWord_getLsbD, hi, decide_true, Bool.true_and, BitVec.getLsbD_zero]
  rw [if_neg (by omega), if_neg (by omega), if_pos (by omega)]

@[simp] theorem hostWhich_hostWord (op : Byte) (which : BitVec 1) (imm : Half) : hostWhich (hostWord op which imm) = which := by
  apply BitVec.eq_of_getLsbD_eq
  intro i hi
  obtain rfl : i = 0 := by omega
  simp only [hostWhich, BitVec.getLsbD_extractLsb', hostWord_getLsbD]
  rfl

@[simp] theorem hostImm_hostWord (op : Byte) (which : BitVec 1) (imm : Half) : hostImm (hostWord op which imm) = imm := by
  apply BitVec.eq_of_getLsbD_eq
  intro i hi
  simp only [hostImm, BitVec.getLsbD_extractLsb', hostWord_getLsbD, hi, decide_true, Bool.true_and, Nat.zero_add, if_true]

/-- A host word with `z` = 0 is made of its other fields. -/
theorem hostWord_of_fields {w : HostWord} (hz : hostZ w = 0#7) : hostWord (hostOpcode w) (hostWhich w) (hostImm w) = w := by
  apply BitVec.eq_of_getLsbD_eq
  intro i hi
  rw [hostWord_getLsbD]
  split
  · simp only [hostImm, BitVec.getLsbD_extractLsb', Nat.zero_add]
    simp_all
  split
  · subst_vars
    simp [hostWhich]
  split
  · have h := congrArg (fun z => z.getLsbD (i - 17)) hz
    simp only [hostZ, BitVec.getLsbD_extractLsb', BitVec.getLsbD_zero] at h
    have h7 : i - 17 < 7 := by omega
    have hi17 : 17 + (i - 17) = i := by omega
    simp only [h7, decide_true, Bool.true_and, hi17] at h
    exact h.symm
  · simp only [hostOpcode, BitVec.getLsbD_extractLsb']
    have h8 : i - 24 < 8 := by omega
    have hi24 : 24 + (i - 24) = i := by omega
    simp only [h8, decide_true, Bool.true_and, hi24]

end Sys2Proof
end

