-- ==== Sys2Proof/Laws/Memory.lean ====
section
/-!
SUPPORT. What the buffer operations do: reads after writes, and the canonical form is kept.
-/

namespace Sys2Proof.Machine

@[simp] theorem Memory.read_nil (a : Nat) : Memory.read a [] = none := rfl

@[simp] theorem Memory.wf_nil : Memory.wf [] = true := rfl

/-- Both buffers are canonical after reset. -/
theorem State.reset_buffers_wf : Memory.wf State.reset.txbuf = true ∧ Memory.wf State.reset.rxbuf = true := ⟨rfl, rfl⟩

/-- In canonical form every later index is above the first. -/
theorem Memory.wf_cons {a : Nat} {b : Byte} {m : Memory} :
    Memory.wf ((a, b) :: m) = true ↔ a < 256 ∧ (∀ c ∈ m, a < c.1) ∧ Memory.wf m = true := by
  simp [Memory.wf, and_assoc]

/-- Every index a write leaves was there before, or is the one written. -/
theorem Memory.index_of_mem_write {a : Nat} {b : Byte} {m : Memory} {c : Host.Cell} (h : c ∈ Memory.write a b m) :
    c.1 = a ∨ c ∈ m := by
  induction m with
  | nil => simp [Memory.write] at h; simp [h]
  | cons x m ih =>
    obtain ⟨k, d⟩ := x
    unfold Memory.write at h
    split at h
    · rcases List.mem_cons.1 h with rfl | h
      · exact .inl rfl
      · exact .inr h
    split at h
    · rcases List.mem_cons.1 h with rfl | h
      · exact .inl rfl
      · exact .inr (List.mem_cons_of_mem _ h)
    · rcases List.mem_cons.1 h with rfl | h
      · exact .inr (List.mem_cons_self)
      · exact (ih h).imp id (List.mem_cons_of_mem _)

/-- A write at an index of the memory keeps the canonical form. -/
theorem Memory.wf_write {a : Nat} {b : Byte} {m : Memory} (h : Memory.wf m = true) (ha : a < 256) :
    Memory.wf (Memory.write a b m) = true := by
  induction m with
  | nil => simp [Memory.write, Memory.wf, ha]
  | cons x m ih =>
    obtain ⟨k, d⟩ := x
    obtain ⟨hk, hlt, hm⟩ := Memory.wf_cons.1 h
    unfold Memory.write
    split
    · rename_i hak
      refine Memory.wf_cons.2 ⟨ha, fun c hc => ?_, h⟩
      rcases List.mem_cons.1 hc with rfl | hc
      · exact hak
      · exact hak.trans (hlt c hc)
    split
    · rename_i _ hak
      subst hak
      exact Memory.wf_cons.2 ⟨ha, hlt, hm⟩
    · rename_i h1 h2
      refine Memory.wf_cons.2 ⟨hk, fun c hc => ?_, ih hm⟩
      rcases Memory.index_of_mem_write hc with hc | hc
      · omega
      · exact hlt c hc

/-- A byte written reads back; every other index reads as before. -/
theorem Memory.read_write (a c : Nat) (b : Byte) (m : Memory) :
    Memory.read c (Memory.write a b m) = if c = a then some b else Memory.read c m := by
  induction m with
  | nil => simp [Memory.write, Memory.read, eq_comm]
  | cons x m ih =>
    obtain ⟨k, d⟩ := x
    unfold Memory.write
    split
    · simp [Memory.read, eq_comm]
    split
    · subst_vars
      by_cases h : c = k
      · simp [Memory.read, h]
      · simp [Memory.read, h, Ne.symm h]
    · by_cases h : c = a
      · subst h
        simp [Memory.read, ih, Ne.symm ‹c ≠ k›]
      · simp [Memory.read, ih, h]

/-- Writing bytes from an index on keeps the canonical form. -/
theorem Memory.wf_writeFrom {bytes : List Byte} {a : Byte} {m : Memory} (h : Memory.wf m = true) :
    Memory.wf (Memory.writeFrom a bytes m) = true := by
  induction bytes generalizing a m with
  | nil => exact h
  | cons b bs ih => exact ih (Memory.wf_write h a.isLt)

/-- Bytes written from index 0 read back, and every index above them reads as before. -/
theorem Memory.read_writeFrom_zero {bytes : List Byte} {m : Memory} (h : bytes.length ≤ 3) (a : Nat) :
    Memory.read a (Memory.writeFrom 0#8 bytes m) = if a < bytes.length then bytes[a]? else Memory.read a m := by
  match bytes, h with
  | [], _ => simp [Memory.writeFrom]
  | [b0], _ =>
    simp only [Memory.writeFrom, Memory.read_write]
    rcases a with _ | a <;> simp
  | [b0, b1], _ =>
    simp only [Memory.writeFrom, Memory.read_write]
    rcases a with _ | _ | a <;> simp
  | [b0, b1, b2], _ =>
    simp only [Memory.writeFrom, Memory.read_write]
    rcases a with _ | _ | _ | a <;> simp
  | _ :: _ :: _ :: _ :: _, h => simp at h; omega

end Sys2Proof.Machine
end

