-- ==== Sys2Proof/Laws/State.lean ====
section
/-!
SUPPORT. One lemma per field per named update of `State`, true by rfl, so that no later proof unfolds a record update.
-/

namespace Sys2Proof.Machine

variable (s : State)

/-! ### flagBusyStart -/

@[simp] theorem State.flagBusyStart_taddr : (s.flagBusyStart).taddr = s.taddr := rfl
@[simp] theorem State.flagBusyStart_wptr : (s.flagBusyStart).wptr = s.wptr := rfl
@[simp] theorem State.flagBusyStart_wrem : (s.flagBusyStart).wrem = s.wrem := rfl
@[simp] theorem State.flagBusyStart_rptr : (s.flagBusyStart).rptr = s.rptr := rfl
@[simp] theorem State.flagBusyStart_rrem : (s.flagBusyStart).rrem = s.rrem := rfl
@[simp] theorem State.flagBusyStart_cpl : (s.flagBusyStart).cpl = s.cpl := rfl
@[simp] theorem State.flagBusyStart_phase : (s.flagBusyStart).phase = s.phase := rfl
@[simp] theorem State.flagBusyStart_tail : (s.flagBusyStart).tail = s.tail := rfl
@[simp] theorem State.flagBusyStart_sTaddr : (s.flagBusyStart).sTaddr = s.sTaddr := rfl
@[simp] theorem State.flagBusyStart_sWptr : (s.flagBusyStart).sWptr = s.sWptr := rfl
@[simp] theorem State.flagBusyStart_sWcnt : (s.flagBusyStart).sWcnt = s.sWcnt := rfl
@[simp] theorem State.flagBusyStart_sRptr : (s.flagBusyStart).sRptr = s.sRptr := rfl
@[simp] theorem State.flagBusyStart_sRcnt : (s.flagBusyStart).sRcnt = s.sRcnt := rfl
@[simp] theorem State.flagBusyStart_sCpl : (s.flagBusyStart).sCpl = s.sCpl := rfl
@[simp] theorem State.flagBusyStart_seq : (s.flagBusyStart).seq = s.seq := rfl
@[simp] theorem State.flagBusyStart_dly : (s.flagBusyStart).dly = s.dly := rfl
@[simp] theorem State.flagBusyStart_resTemp : (s.flagBusyStart).resTemp = s.resTemp := rfl
@[simp] theorem State.flagBusyStart_resThyst : (s.flagBusyStart).resThyst = s.resThyst := rfl
@[simp] theorem State.flagBusyStart_resTos : (s.flagBusyStart).resTos = s.resTos := rfl
@[simp] theorem State.flagBusyStart_errBusyStart : (s.flagBusyStart).errBusyStart = true := rfl
@[simp] theorem State.flagBusyStart_errBadDesc : (s.flagBusyStart).errBadDesc = s.errBadDesc := rfl
@[simp] theorem State.flagBusyStart_errIllCmd : (s.flagBusyStart).errIllCmd = s.errIllCmd := rfl
@[simp] theorem State.flagBusyStart_evPend : (s.flagBusyStart).evPend = s.evPend := rfl
@[simp] theorem State.flagBusyStart_bcTrace : (s.flagBusyStart).bcTrace = s.bcTrace := rfl
@[simp] theorem State.flagBusyStart_txbuf : (s.flagBusyStart).txbuf = s.txbuf := rfl
@[simp] theorem State.flagBusyStart_rxbuf : (s.flagBusyStart).rxbuf = s.rxbuf := rfl
@[simp] theorem State.flagBusyStart_cplPulse : (s.flagBusyStart).cplPulse = s.cplPulse := rfl
@[simp] theorem State.flagBusyStart_hostOut : (s.flagBusyStart).hostOut = s.hostOut := rfl
@[simp] theorem State.flagBusyStart_own : (s.flagBusyStart).own = s.own := rfl
@[simp] theorem State.flagBusyStart_stim : (s.flagBusyStart).stim = s.stim := rfl
@[simp] theorem State.flagBusyStart_ansStatus : (s.flagBusyStart).ansStatus = s.ansStatus := rfl
@[simp] theorem State.flagBusyStart_ansData : (s.flagBusyStart).ansData = s.ansData := rfl
@[simp] theorem State.flagBusyStart_draws : (s.flagBusyStart).draws = s.draws := rfl
@[simp] theorem State.flagBusyStart_bcPast : (s.flagBusyStart).bcPast = s.bcPast := rfl

/-! ### flagBadDesc -/

@[simp] theorem State.flagBadDesc_taddr : (s.flagBadDesc).taddr = s.taddr := rfl
@[simp] theorem State.flagBadDesc_wptr : (s.flagBadDesc).wptr = s.wptr := rfl
@[simp] theorem State.flagBadDesc_wrem : (s.flagBadDesc).wrem = s.wrem := rfl
@[simp] theorem State.flagBadDesc_rptr : (s.flagBadDesc).rptr = s.rptr := rfl
@[simp] theorem State.flagBadDesc_rrem : (s.flagBadDesc).rrem = s.rrem := rfl
@[simp] theorem State.flagBadDesc_cpl : (s.flagBadDesc).cpl = s.cpl := rfl
@[simp] theorem State.flagBadDesc_phase : (s.flagBadDesc).phase = s.phase := rfl
@[simp] theorem State.flagBadDesc_tail : (s.flagBadDesc).tail = s.tail := rfl
@[simp] theorem State.flagBadDesc_sTaddr : (s.flagBadDesc).sTaddr = s.sTaddr := rfl
@[simp] theorem State.flagBadDesc_sWptr : (s.flagBadDesc).sWptr = s.sWptr := rfl
@[simp] theorem State.flagBadDesc_sWcnt : (s.flagBadDesc).sWcnt = s.sWcnt := rfl
@[simp] theorem State.flagBadDesc_sRptr : (s.flagBadDesc).sRptr = s.sRptr := rfl
@[simp] theorem State.flagBadDesc_sRcnt : (s.flagBadDesc).sRcnt = s.sRcnt := rfl
@[simp] theorem State.flagBadDesc_sCpl : (s.flagBadDesc).sCpl = s.sCpl := rfl
@[simp] theorem State.flagBadDesc_seq : (s.flagBadDesc).seq = s.seq := rfl
@[simp] theorem State.flagBadDesc_dly : (s.flagBadDesc).dly = s.dly := rfl
@[simp] theorem State.flagBadDesc_resTemp : (s.flagBadDesc).resTemp = s.resTemp := rfl
@[simp] theorem State.flagBadDesc_resThyst : (s.flagBadDesc).resThyst = s.resThyst := rfl
@[simp] theorem State.flagBadDesc_resTos : (s.flagBadDesc).resTos = s.resTos := rfl
@[simp] theorem State.flagBadDesc_errBusyStart : (s.flagBadDesc).errBusyStart = s.errBusyStart := rfl
@[simp] theorem State.flagBadDesc_errBadDesc : (s.flagBadDesc).errBadDesc = true := rfl
@[simp] theorem State.flagBadDesc_errIllCmd : (s.flagBadDesc).errIllCmd = s.errIllCmd := rfl
@[simp] theorem State.flagBadDesc_evPend : (s.flagBadDesc).evPend = s.evPend := rfl
@[simp] theorem State.flagBadDesc_bcTrace : (s.flagBadDesc).bcTrace = s.bcTrace := rfl
@[simp] theorem State.flagBadDesc_txbuf : (s.flagBadDesc).txbuf = s.txbuf := rfl
@[simp] theorem State.flagBadDesc_rxbuf : (s.flagBadDesc).rxbuf = s.rxbuf := rfl
@[simp] theorem State.flagBadDesc_cplPulse : (s.flagBadDesc).cplPulse = s.cplPulse := rfl
@[simp] theorem State.flagBadDesc_hostOut : (s.flagBadDesc).hostOut = s.hostOut := rfl
@[simp] theorem State.flagBadDesc_own : (s.flagBadDesc).own = s.own := rfl
@[simp] theorem State.flagBadDesc_stim : (s.flagBadDesc).stim = s.stim := rfl
@[simp] theorem State.flagBadDesc_ansStatus : (s.flagBadDesc).ansStatus = s.ansStatus := rfl
@[simp] theorem State.flagBadDesc_ansData : (s.flagBadDesc).ansData = s.ansData := rfl
@[simp] theorem State.flagBadDesc_draws : (s.flagBadDesc).draws = s.draws := rfl
@[simp] theorem State.flagBadDesc_bcPast : (s.flagBadDesc).bcPast = s.bcPast := rfl

/-! ### flagIllCmd -/

@[simp] theorem State.flagIllCmd_taddr : (s.flagIllCmd).taddr = s.taddr := rfl
@[simp] theorem State.flagIllCmd_wptr : (s.flagIllCmd).wptr = s.wptr := rfl
@[simp] theorem State.flagIllCmd_wrem : (s.flagIllCmd).wrem = s.wrem := rfl
@[simp] theorem State.flagIllCmd_rptr : (s.flagIllCmd).rptr = s.rptr := rfl
@[simp] theorem State.flagIllCmd_rrem : (s.flagIllCmd).rrem = s.rrem := rfl
@[simp] theorem State.flagIllCmd_cpl : (s.flagIllCmd).cpl = s.cpl := rfl
@[simp] theorem State.flagIllCmd_phase : (s.flagIllCmd).phase = s.phase := rfl
@[simp] theorem State.flagIllCmd_tail : (s.flagIllCmd).tail = s.tail := rfl
@[simp] theorem State.flagIllCmd_sTaddr : (s.flagIllCmd).sTaddr = s.sTaddr := rfl
@[simp] theorem State.flagIllCmd_sWptr : (s.flagIllCmd).sWptr = s.sWptr := rfl
@[simp] theorem State.flagIllCmd_sWcnt : (s.flagIllCmd).sWcnt = s.sWcnt := rfl
@[simp] theorem State.flagIllCmd_sRptr : (s.flagIllCmd).sRptr = s.sRptr := rfl
@[simp] theorem State.flagIllCmd_sRcnt : (s.flagIllCmd).sRcnt = s.sRcnt := rfl
@[simp] theorem State.flagIllCmd_sCpl : (s.flagIllCmd).sCpl = s.sCpl := rfl
@[simp] theorem State.flagIllCmd_seq : (s.flagIllCmd).seq = s.seq := rfl
@[simp] theorem State.flagIllCmd_dly : (s.flagIllCmd).dly = s.dly := rfl
@[simp] theorem State.flagIllCmd_resTemp : (s.flagIllCmd).resTemp = s.resTemp := rfl
@[simp] theorem State.flagIllCmd_resThyst : (s.flagIllCmd).resThyst = s.resThyst := rfl
@[simp] theorem State.flagIllCmd_resTos : (s.flagIllCmd).resTos = s.resTos := rfl
@[simp] theorem State.flagIllCmd_errBusyStart : (s.flagIllCmd).errBusyStart = s.errBusyStart := rfl
@[simp] theorem State.flagIllCmd_errBadDesc : (s.flagIllCmd).errBadDesc = s.errBadDesc := rfl
@[simp] theorem State.flagIllCmd_errIllCmd : (s.flagIllCmd).errIllCmd = true := rfl
@[simp] theorem State.flagIllCmd_evPend : (s.flagIllCmd).evPend = s.evPend := rfl
@[simp] theorem State.flagIllCmd_bcTrace : (s.flagIllCmd).bcTrace = s.bcTrace := rfl
@[simp] theorem State.flagIllCmd_txbuf : (s.flagIllCmd).txbuf = s.txbuf := rfl
@[simp] theorem State.flagIllCmd_rxbuf : (s.flagIllCmd).rxbuf = s.rxbuf := rfl
@[simp] theorem State.flagIllCmd_cplPulse : (s.flagIllCmd).cplPulse = s.cplPulse := rfl
@[simp] theorem State.flagIllCmd_hostOut : (s.flagIllCmd).hostOut = s.hostOut := rfl
@[simp] theorem State.flagIllCmd_own : (s.flagIllCmd).own = s.own := rfl
@[simp] theorem State.flagIllCmd_stim : (s.flagIllCmd).stim = s.stim := rfl
@[simp] theorem State.flagIllCmd_ansStatus : (s.flagIllCmd).ansStatus = s.ansStatus := rfl
@[simp] theorem State.flagIllCmd_ansData : (s.flagIllCmd).ansData = s.ansData := rfl
@[simp] theorem State.flagIllCmd_draws : (s.flagIllCmd).draws = s.draws := rfl
@[simp] theorem State.flagIllCmd_bcPast : (s.flagIllCmd).bcPast = s.bcPast := rfl

/-! ### log -/

@[simp] theorem State.log_taddr (e : BusEntry) : (s.log e).taddr = s.taddr := rfl
@[simp] theorem State.log_wptr (e : BusEntry) : (s.log e).wptr = s.wptr := rfl
@[simp] theorem State.log_wrem (e : BusEntry) : (s.log e).wrem = s.wrem := rfl
@[simp] theorem State.log_rptr (e : BusEntry) : (s.log e).rptr = s.rptr := rfl
@[simp] theorem State.log_rrem (e : BusEntry) : (s.log e).rrem = s.rrem := rfl
@[simp] theorem State.log_cpl (e : BusEntry) : (s.log e).cpl = s.cpl := rfl
@[simp] theorem State.log_phase (e : BusEntry) : (s.log e).phase = s.phase := rfl
@[simp] theorem State.log_tail (e : BusEntry) : (s.log e).tail = s.tail := rfl
@[simp] theorem State.log_sTaddr (e : BusEntry) : (s.log e).sTaddr = s.sTaddr := rfl
@[simp] theorem State.log_sWptr (e : BusEntry) : (s.log e).sWptr = s.sWptr := rfl
@[simp] theorem State.log_sWcnt (e : BusEntry) : (s.log e).sWcnt = s.sWcnt := rfl
@[simp] theorem State.log_sRptr (e : BusEntry) : (s.log e).sRptr = s.sRptr := rfl
@[simp] theorem State.log_sRcnt (e : BusEntry) : (s.log e).sRcnt = s.sRcnt := rfl
@[simp] theorem State.log_sCpl (e : BusEntry) : (s.log e).sCpl = s.sCpl := rfl
@[simp] theorem State.log_seq (e : BusEntry) : (s.log e).seq = s.seq := rfl
@[simp] theorem State.log_dly (e : BusEntry) : (s.log e).dly = s.dly := rfl
@[simp] theorem State.log_resTemp (e : BusEntry) : (s.log e).resTemp = s.resTemp := rfl
@[simp] theorem State.log_resThyst (e : BusEntry) : (s.log e).resThyst = s.resThyst := rfl
@[simp] theorem State.log_resTos (e : BusEntry) : (s.log e).resTos = s.resTos := rfl
@[simp] theorem State.log_errBusyStart (e : BusEntry) : (s.log e).errBusyStart = s.errBusyStart := rfl
@[simp] theorem State.log_errBadDesc (e : BusEntry) : (s.log e).errBadDesc = s.errBadDesc := rfl
@[simp] theorem State.log_errIllCmd (e : BusEntry) : (s.log e).errIllCmd = s.errIllCmd := rfl
@[simp] theorem State.log_evPend (e : BusEntry) : (s.log e).evPend = s.evPend := rfl
@[simp] theorem State.log_bcTrace (e : BusEntry) : (s.log e).bcTrace = s.bcTrace ++ [e] := rfl
@[simp] theorem State.log_txbuf (e : BusEntry) : (s.log e).txbuf = s.txbuf := rfl
@[simp] theorem State.log_rxbuf (e : BusEntry) : (s.log e).rxbuf = s.rxbuf := rfl
@[simp] theorem State.log_cplPulse (e : BusEntry) : (s.log e).cplPulse = s.cplPulse := rfl
@[simp] theorem State.log_hostOut (e : BusEntry) : (s.log e).hostOut = s.hostOut := rfl
@[simp] theorem State.log_own (e : BusEntry) : (s.log e).own = s.own := rfl
@[simp] theorem State.log_stim (e : BusEntry) : (s.log e).stim = s.stim := rfl
@[simp] theorem State.log_ansStatus (e : BusEntry) : (s.log e).ansStatus = s.ansStatus := rfl
@[simp] theorem State.log_ansData (e : BusEntry) : (s.log e).ansData = s.ansData := rfl
@[simp] theorem State.log_draws (e : BusEntry) : (s.log e).draws = s.draws := rfl
@[simp] theorem State.log_bcPast (e : BusEntry) : (s.log e).bcPast = s.bcPast := rfl

/-! ### tookStatus -/

@[simp] theorem State.tookStatus_taddr : (s.tookStatus).taddr = s.taddr := rfl
@[simp] theorem State.tookStatus_wptr : (s.tookStatus).wptr = s.wptr := rfl
@[simp] theorem State.tookStatus_wrem : (s.tookStatus).wrem = s.wrem := rfl
@[simp] theorem State.tookStatus_rptr : (s.tookStatus).rptr = s.rptr := rfl
@[simp] theorem State.tookStatus_rrem : (s.tookStatus).rrem = s.rrem := rfl
@[simp] theorem State.tookStatus_cpl : (s.tookStatus).cpl = s.cpl := rfl
@[simp] theorem State.tookStatus_phase : (s.tookStatus).phase = s.phase := rfl
@[simp] theorem State.tookStatus_tail : (s.tookStatus).tail = s.tail := rfl
@[simp] theorem State.tookStatus_sTaddr : (s.tookStatus).sTaddr = s.sTaddr := rfl
@[simp] theorem State.tookStatus_sWptr : (s.tookStatus).sWptr = s.sWptr := rfl
@[simp] theorem State.tookStatus_sWcnt : (s.tookStatus).sWcnt = s.sWcnt := rfl
@[simp] theorem State.tookStatus_sRptr : (s.tookStatus).sRptr = s.sRptr := rfl
@[simp] theorem State.tookStatus_sRcnt : (s.tookStatus).sRcnt = s.sRcnt := rfl
@[simp] theorem State.tookStatus_sCpl : (s.tookStatus).sCpl = s.sCpl := rfl
@[simp] theorem State.tookStatus_seq : (s.tookStatus).seq = s.seq := rfl
@[simp] theorem State.tookStatus_dly : (s.tookStatus).dly = s.dly := rfl
@[simp] theorem State.tookStatus_resTemp : (s.tookStatus).resTemp = s.resTemp := rfl
@[simp] theorem State.tookStatus_resThyst : (s.tookStatus).resThyst = s.resThyst := rfl
@[simp] theorem State.tookStatus_resTos : (s.tookStatus).resTos = s.resTos := rfl
@[simp] theorem State.tookStatus_errBusyStart : (s.tookStatus).errBusyStart = s.errBusyStart := rfl
@[simp] theorem State.tookStatus_errBadDesc : (s.tookStatus).errBadDesc = s.errBadDesc := rfl
@[simp] theorem State.tookStatus_errIllCmd : (s.tookStatus).errIllCmd = s.errIllCmd := rfl
@[simp] theorem State.tookStatus_evPend : (s.tookStatus).evPend = s.evPend := rfl
@[simp] theorem State.tookStatus_bcTrace : (s.tookStatus).bcTrace = s.bcTrace := rfl
@[simp] theorem State.tookStatus_txbuf : (s.tookStatus).txbuf = s.txbuf := rfl
@[simp] theorem State.tookStatus_rxbuf : (s.tookStatus).rxbuf = s.rxbuf := rfl
@[simp] theorem State.tookStatus_cplPulse : (s.tookStatus).cplPulse = s.cplPulse := rfl
@[simp] theorem State.tookStatus_hostOut : (s.tookStatus).hostOut = s.hostOut := rfl
@[simp] theorem State.tookStatus_own : (s.tookStatus).own = s.own := rfl
@[simp] theorem State.tookStatus_stim : (s.tookStatus).stim = s.stim := rfl
@[simp] theorem State.tookStatus_ansStatus : (s.tookStatus).ansStatus = none := rfl
@[simp] theorem State.tookStatus_ansData : (s.tookStatus).ansData = s.ansData := rfl
@[simp] theorem State.tookStatus_draws : (s.tookStatus).draws = if s.ansStatus.isSome then s.draws else s.draws + 1 := rfl
@[simp] theorem State.tookStatus_bcPast : (s.tookStatus).bcPast = s.bcPast := rfl

/-! ### tookData -/

@[simp] theorem State.tookData_taddr : (s.tookData).taddr = s.taddr := rfl
@[simp] theorem State.tookData_wptr : (s.tookData).wptr = s.wptr := rfl
@[simp] theorem State.tookData_wrem : (s.tookData).wrem = s.wrem := rfl
@[simp] theorem State.tookData_rptr : (s.tookData).rptr = s.rptr := rfl
@[simp] theorem State.tookData_rrem : (s.tookData).rrem = s.rrem := rfl
@[simp] theorem State.tookData_cpl : (s.tookData).cpl = s.cpl := rfl
@[simp] theorem State.tookData_phase : (s.tookData).phase = s.phase := rfl
@[simp] theorem State.tookData_tail : (s.tookData).tail = s.tail := rfl
@[simp] theorem State.tookData_sTaddr : (s.tookData).sTaddr = s.sTaddr := rfl
@[simp] theorem State.tookData_sWptr : (s.tookData).sWptr = s.sWptr := rfl
@[simp] theorem State.tookData_sWcnt : (s.tookData).sWcnt = s.sWcnt := rfl
@[simp] theorem State.tookData_sRptr : (s.tookData).sRptr = s.sRptr := rfl
@[simp] theorem State.tookData_sRcnt : (s.tookData).sRcnt = s.sRcnt := rfl
@[simp] theorem State.tookData_sCpl : (s.tookData).sCpl = s.sCpl := rfl
@[simp] theorem State.tookData_seq : (s.tookData).seq = s.seq := rfl
@[simp] theorem State.tookData_dly : (s.tookData).dly = s.dly := rfl
@[simp] theorem State.tookData_resTemp : (s.tookData).resTemp = s.resTemp := rfl
@[simp] theorem State.tookData_resThyst : (s.tookData).resThyst = s.resThyst := rfl
@[simp] theorem State.tookData_resTos : (s.tookData).resTos = s.resTos := rfl
@[simp] theorem State.tookData_errBusyStart : (s.tookData).errBusyStart = s.errBusyStart := rfl
@[simp] theorem State.tookData_errBadDesc : (s.tookData).errBadDesc = s.errBadDesc := rfl
@[simp] theorem State.tookData_errIllCmd : (s.tookData).errIllCmd = s.errIllCmd := rfl
@[simp] theorem State.tookData_evPend : (s.tookData).evPend = s.evPend := rfl
@[simp] theorem State.tookData_bcTrace : (s.tookData).bcTrace = s.bcTrace := rfl
@[simp] theorem State.tookData_txbuf : (s.tookData).txbuf = s.txbuf := rfl
@[simp] theorem State.tookData_rxbuf : (s.tookData).rxbuf = s.rxbuf := rfl
@[simp] theorem State.tookData_cplPulse : (s.tookData).cplPulse = s.cplPulse := rfl
@[simp] theorem State.tookData_hostOut : (s.tookData).hostOut = s.hostOut := rfl
@[simp] theorem State.tookData_own : (s.tookData).own = s.own := rfl
@[simp] theorem State.tookData_stim : (s.tookData).stim = s.stim := rfl
@[simp] theorem State.tookData_ansStatus : (s.tookData).ansStatus = s.ansStatus := rfl
@[simp] theorem State.tookData_ansData : (s.tookData).ansData = none := rfl
@[simp] theorem State.tookData_draws : (s.tookData).draws = if s.ansData.isSome then s.draws else s.draws + 1 := rfl
@[simp] theorem State.tookData_bcPast : (s.tookData).bcPast = s.bcPast := rfl

/-! ### loaded -/

@[simp] theorem State.loaded_taddr (d : Descriptor) : (s.loaded d).taddr = d.taddr := rfl
@[simp] theorem State.loaded_wptr (d : Descriptor) : (s.loaded d).wptr = d.wptr := rfl
@[simp] theorem State.loaded_wrem (d : Descriptor) : (s.loaded d).wrem = d.wcnt := rfl
@[simp] theorem State.loaded_rptr (d : Descriptor) : (s.loaded d).rptr = d.rptr := rfl
@[simp] theorem State.loaded_rrem (d : Descriptor) : (s.loaded d).rrem = d.rcnt := rfl
@[simp] theorem State.loaded_cpl (d : Descriptor) : (s.loaded d).cpl = d.cpl := rfl
@[simp] theorem State.loaded_phase (d : Descriptor) : (s.loaded d).phase = s.phase := rfl
@[simp] theorem State.loaded_tail (d : Descriptor) : (s.loaded d).tail = true := rfl
@[simp] theorem State.loaded_sTaddr (d : Descriptor) : (s.loaded d).sTaddr = s.sTaddr := rfl
@[simp] theorem State.loaded_sWptr (d : Descriptor) : (s.loaded d).sWptr = s.sWptr := rfl
@[simp] theorem State.loaded_sWcnt (d : Descriptor) : (s.loaded d).sWcnt = s.sWcnt := rfl
@[simp] theorem State.loaded_sRptr (d : Descriptor) : (s.loaded d).sRptr = s.sRptr := rfl
@[simp] theorem State.loaded_sRcnt (d : Descriptor) : (s.loaded d).sRcnt = s.sRcnt := rfl
@[simp] theorem State.loaded_sCpl (d : Descriptor) : (s.loaded d).sCpl = s.sCpl := rfl
@[simp] theorem State.loaded_seq (d : Descriptor) : (s.loaded d).seq = s.seq := rfl
@[simp] theorem State.loaded_dly (d : Descriptor) : (s.loaded d).dly = s.dly := rfl
@[simp] theorem State.loaded_resTemp (d : Descriptor) : (s.loaded d).resTemp = s.resTemp := rfl
@[simp] theorem State.loaded_resThyst (d : Descriptor) : (s.loaded d).resThyst = s.resThyst := rfl
@[simp] theorem State.loaded_resTos (d : Descriptor) : (s.loaded d).resTos = s.resTos := rfl
@[simp] theorem State.loaded_errBusyStart (d : Descriptor) : (s.loaded d).errBusyStart = s.errBusyStart := rfl
@[simp] theorem State.loaded_errBadDesc (d : Descriptor) : (s.loaded d).errBadDesc = s.errBadDesc := rfl
@[simp] theorem State.loaded_errIllCmd (d : Descriptor) : (s.loaded d).errIllCmd = s.errIllCmd := rfl
@[simp] theorem State.loaded_evPend (d : Descriptor) : (s.loaded d).evPend = s.evPend := rfl
@[simp] theorem State.loaded_bcTrace (d : Descriptor) : (s.loaded d).bcTrace = s.bcTrace := rfl
@[simp] theorem State.loaded_txbuf (d : Descriptor) : (s.loaded d).txbuf = s.txbuf := rfl
@[simp] theorem State.loaded_rxbuf (d : Descriptor) : (s.loaded d).rxbuf = s.rxbuf := rfl
@[simp] theorem State.loaded_cplPulse (d : Descriptor) : (s.loaded d).cplPulse = s.cplPulse := rfl
@[simp] theorem State.loaded_hostOut (d : Descriptor) : (s.loaded d).hostOut = s.hostOut := rfl
@[simp] theorem State.loaded_own (d : Descriptor) : (s.loaded d).own = d := rfl
@[simp] theorem State.loaded_stim (d : Descriptor) : (s.loaded d).stim = s.stim := rfl
@[simp] theorem State.loaded_ansStatus (d : Descriptor) : (s.loaded d).ansStatus = s.ansStatus := rfl
@[simp] theorem State.loaded_ansData (d : Descriptor) : (s.loaded d).ansData = s.ansData := rfl
@[simp] theorem State.loaded_draws (d : Descriptor) : (s.loaded d).draws = s.draws := rfl
@[simp] theorem State.loaded_bcPast (d : Descriptor) : (s.loaded d).bcPast = s.bcPast := rfl

/-! ### startDelay -/

@[simp] theorem State.startDelay_taddr (q : Sequencer) : (s.startDelay q).taddr = s.taddr := rfl
@[simp] theorem State.startDelay_wptr (q : Sequencer) : (s.startDelay q).wptr = s.wptr := rfl
@[simp] theorem State.startDelay_wrem (q : Sequencer) : (s.startDelay q).wrem = s.wrem := rfl
@[simp] theorem State.startDelay_rptr (q : Sequencer) : (s.startDelay q).rptr = s.rptr := rfl
@[simp] theorem State.startDelay_rrem (q : Sequencer) : (s.startDelay q).rrem = s.rrem := rfl
@[simp] theorem State.startDelay_cpl (q : Sequencer) : (s.startDelay q).cpl = s.cpl := rfl
@[simp] theorem State.startDelay_phase (q : Sequencer) : (s.startDelay q).phase = s.phase := rfl
@[simp] theorem State.startDelay_tail (q : Sequencer) : (s.startDelay q).tail = s.tail := rfl
@[simp] theorem State.startDelay_sTaddr (q : Sequencer) : (s.startDelay q).sTaddr = s.sTaddr := rfl
@[simp] theorem State.startDelay_sWptr (q : Sequencer) : (s.startDelay q).sWptr = s.sWptr := rfl
@[simp] theorem State.startDelay_sWcnt (q : Sequencer) : (s.startDelay q).sWcnt = s.sWcnt := rfl
@[simp] theorem State.startDelay_sRptr (q : Sequencer) : (s.startDelay q).sRptr = s.sRptr := rfl
@[simp] theorem State.startDelay_sRcnt (q : Sequencer) : (s.startDelay q).sRcnt = s.sRcnt := rfl
@[simp] theorem State.startDelay_sCpl (q : Sequencer) : (s.startDelay q).sCpl = s.sCpl := rfl
@[simp] theorem State.startDelay_seq (q : Sequencer) : (s.startDelay q).seq = q := rfl
@[simp] theorem State.startDelay_dly (q : Sequencer) : (s.startDelay q).dly = Config.freeDelayCount s.draws := rfl
@[simp] theorem State.startDelay_resTemp (q : Sequencer) : (s.startDelay q).resTemp = s.resTemp := rfl
@[simp] theorem State.startDelay_resThyst (q : Sequencer) : (s.startDelay q).resThyst = s.resThyst := rfl
@[simp] theorem State.startDelay_resTos (q : Sequencer) : (s.startDelay q).resTos = s.resTos := rfl
@[simp] theorem State.startDelay_errBusyStart (q : Sequencer) : (s.startDelay q).errBusyStart = s.errBusyStart := rfl
@[simp] theorem State.startDelay_errBadDesc (q : Sequencer) : (s.startDelay q).errBadDesc = s.errBadDesc := rfl
@[simp] theorem State.startDelay_errIllCmd (q : Sequencer) : (s.startDelay q).errIllCmd = s.errIllCmd := rfl
@[simp] theorem State.startDelay_evPend (q : Sequencer) : (s.startDelay q).evPend = s.evPend := rfl
@[simp] theorem State.startDelay_bcTrace (q : Sequencer) : (s.startDelay q).bcTrace = s.bcTrace := rfl
@[simp] theorem State.startDelay_txbuf (q : Sequencer) : (s.startDelay q).txbuf = s.txbuf := rfl
@[simp] theorem State.startDelay_rxbuf (q : Sequencer) : (s.startDelay q).rxbuf = s.rxbuf := rfl
@[simp] theorem State.startDelay_cplPulse (q : Sequencer) : (s.startDelay q).cplPulse = s.cplPulse := rfl
@[simp] theorem State.startDelay_hostOut (q : Sequencer) : (s.startDelay q).hostOut = s.hostOut := rfl
@[simp] theorem State.startDelay_own (q : Sequencer) : (s.startDelay q).own = s.own := rfl
@[simp] theorem State.startDelay_stim (q : Sequencer) : (s.startDelay q).stim = s.stim := rfl
@[simp] theorem State.startDelay_ansStatus (q : Sequencer) : (s.startDelay q).ansStatus = s.ansStatus := rfl
@[simp] theorem State.startDelay_ansData (q : Sequencer) : (s.startDelay q).ansData = s.ansData := rfl
@[simp] theorem State.startDelay_draws (q : Sequencer) : (s.startDelay q).draws = s.draws + 1 := rfl
@[simp] theorem State.startDelay_bcPast (q : Sequencer) : (s.startDelay q).bcPast = s.bcPast := rfl

/-! ### endDelay -/

@[simp] theorem State.endDelay_taddr : (s.endDelay).taddr = s.taddr := rfl
@[simp] theorem State.endDelay_wptr : (s.endDelay).wptr = s.wptr := rfl
@[simp] theorem State.endDelay_wrem : (s.endDelay).wrem = s.wrem := rfl
@[simp] theorem State.endDelay_rptr : (s.endDelay).rptr = s.rptr := rfl
@[simp] theorem State.endDelay_rrem : (s.endDelay).rrem = s.rrem := rfl
@[simp] theorem State.endDelay_cpl : (s.endDelay).cpl = s.cpl := rfl
@[simp] theorem State.endDelay_phase : (s.endDelay).phase = s.phase := rfl
@[simp] theorem State.endDelay_tail : (s.endDelay).tail = s.tail := rfl
@[simp] theorem State.endDelay_sTaddr : (s.endDelay).sTaddr = s.sTaddr := rfl
@[simp] theorem State.endDelay_sWptr : (s.endDelay).sWptr = s.sWptr := rfl
@[simp] theorem State.endDelay_sWcnt : (s.endDelay).sWcnt = s.sWcnt := rfl
@[simp] theorem State.endDelay_sRptr : (s.endDelay).sRptr = s.sRptr := rfl
@[simp] theorem State.endDelay_sRcnt : (s.endDelay).sRcnt = s.sRcnt := rfl
@[simp] theorem State.endDelay_sCpl : (s.endDelay).sCpl = s.sCpl := rfl
@[simp] theorem State.endDelay_seq : (s.endDelay).seq = .ready := rfl
@[simp] theorem State.endDelay_dly : (s.endDelay).dly = Config.freeDelayCount s.draws := rfl
@[simp] theorem State.endDelay_resTemp : (s.endDelay).resTemp = s.resTemp := rfl
@[simp] theorem State.endDelay_resThyst : (s.endDelay).resThyst = s.resThyst := rfl
@[simp] theorem State.endDelay_resTos : (s.endDelay).resTos = s.resTos := rfl
@[simp] theorem State.endDelay_errBusyStart : (s.endDelay).errBusyStart = s.errBusyStart := rfl
@[simp] theorem State.endDelay_errBadDesc : (s.endDelay).errBadDesc = s.errBadDesc := rfl
@[simp] theorem State.endDelay_errIllCmd : (s.endDelay).errIllCmd = s.errIllCmd := rfl
@[simp] theorem State.endDelay_evPend : (s.endDelay).evPend = s.evPend := rfl
@[simp] theorem State.endDelay_bcTrace : (s.endDelay).bcTrace = s.bcTrace := rfl
@[simp] theorem State.endDelay_txbuf : (s.endDelay).txbuf = s.txbuf := rfl
@[simp] theorem State.endDelay_rxbuf : (s.endDelay).rxbuf = s.rxbuf := rfl
@[simp] theorem State.endDelay_cplPulse : (s.endDelay).cplPulse = s.cplPulse := rfl
@[simp] theorem State.endDelay_hostOut : (s.endDelay).hostOut = s.hostOut := rfl
@[simp] theorem State.endDelay_own : (s.endDelay).own = s.own := rfl
@[simp] theorem State.endDelay_stim : (s.endDelay).stim = s.stim := rfl
@[simp] theorem State.endDelay_ansStatus : (s.endDelay).ansStatus = s.ansStatus := rfl
@[simp] theorem State.endDelay_ansData : (s.endDelay).ansData = s.ansData := rfl
@[simp] theorem State.endDelay_draws : (s.endDelay).draws = s.draws + 1 := rfl
@[simp] theorem State.endDelay_bcPast : (s.endDelay).bcPast = s.bcPast := rfl

/-! ### pulse -/

@[simp] theorem State.pulse_taddr (c : Continuation) : (s.pulse c).taddr = s.taddr := rfl
@[simp] theorem State.pulse_wptr (c : Continuation) : (s.pulse c).wptr = s.wptr := rfl
@[simp] theorem State.pulse_wrem (c : Continuation) : (s.pulse c).wrem = s.wrem := rfl
@[simp] theorem State.pulse_rptr (c : Continuation) : (s.pulse c).rptr = s.rptr := rfl
@[simp] theorem State.pulse_rrem (c : Continuation) : (s.pulse c).rrem = s.rrem := rfl
@[simp] theorem State.pulse_cpl (c : Continuation) : (s.pulse c).cpl = s.cpl := rfl
@[simp] theorem State.pulse_phase (c : Continuation) : (s.pulse c).phase = s.phase := rfl
@[simp] theorem State.pulse_tail (c : Continuation) : (s.pulse c).tail = s.tail := rfl
@[simp] theorem State.pulse_sTaddr (c : Continuation) : (s.pulse c).sTaddr = s.sTaddr := rfl
@[simp] theorem State.pulse_sWptr (c : Continuation) : (s.pulse c).sWptr = s.sWptr := rfl
@[simp] theorem State.pulse_sWcnt (c : Continuation) : (s.pulse c).sWcnt = s.sWcnt := rfl
@[simp] theorem State.pulse_sRptr (c : Continuation) : (s.pulse c).sRptr = s.sRptr := rfl
@[simp] theorem State.pulse_sRcnt (c : Continuation) : (s.pulse c).sRcnt = s.sRcnt := rfl
@[simp] theorem State.pulse_sCpl (c : Continuation) : (s.pulse c).sCpl = s.sCpl := rfl
@[simp] theorem State.pulse_seq (c : Continuation) : (s.pulse c).seq = s.seq := rfl
@[simp] theorem State.pulse_dly (c : Continuation) : (s.pulse c).dly = s.dly := rfl
@[simp] theorem State.pulse_resTemp (c : Continuation) : (s.pulse c).resTemp = s.resTemp := rfl
@[simp] theorem State.pulse_resThyst (c : Continuation) : (s.pulse c).resThyst = s.resThyst := rfl
@[simp] theorem State.pulse_resTos (c : Continuation) : (s.pulse c).resTos = s.resTos := rfl
@[simp] theorem State.pulse_errBusyStart (c : Continuation) : (s.pulse c).errBusyStart = s.errBusyStart := rfl
@[simp] theorem State.pulse_errBadDesc (c : Continuation) : (s.pulse c).errBadDesc = s.errBadDesc := rfl
@[simp] theorem State.pulse_errIllCmd (c : Continuation) : (s.pulse c).errIllCmd = s.errIllCmd := rfl
@[simp] theorem State.pulse_evPend (c : Continuation) : (s.pulse c).evPend = s.evPend := rfl
@[simp] theorem State.pulse_bcTrace (c : Continuation) : (s.pulse c).bcTrace = s.bcTrace := rfl
@[simp] theorem State.pulse_txbuf (c : Continuation) : (s.pulse c).txbuf = s.txbuf := rfl
@[simp] theorem State.pulse_rxbuf (c : Continuation) : (s.pulse c).rxbuf = s.rxbuf := rfl
@[simp] theorem State.pulse_cplPulse (c : Continuation) : (s.pulse c).cplPulse = some c.id := rfl
@[simp] theorem State.pulse_hostOut (c : Continuation) : (s.pulse c).hostOut = s.hostOut := rfl
@[simp] theorem State.pulse_own (c : Continuation) : (s.pulse c).own = s.own := rfl
@[simp] theorem State.pulse_stim (c : Continuation) : (s.pulse c).stim = s.stim := rfl
@[simp] theorem State.pulse_ansStatus (c : Continuation) : (s.pulse c).ansStatus = s.ansStatus := rfl
@[simp] theorem State.pulse_ansData (c : Continuation) : (s.pulse c).ansData = s.ansData := rfl
@[simp] theorem State.pulse_draws (c : Continuation) : (s.pulse c).draws = s.draws := rfl
@[simp] theorem State.pulse_bcPast (c : Continuation) : (s.pulse c).bcPast = s.bcPast := rfl

/-! ### raiseEvent -/

@[simp] theorem State.raiseEvent_taddr (w : BitVec 2) (b : Option Byte) : (s.raiseEvent w b).taddr = s.taddr := rfl
@[simp] theorem State.raiseEvent_wptr (w : BitVec 2) (b : Option Byte) : (s.raiseEvent w b).wptr = s.wptr := rfl
@[simp] theorem State.raiseEvent_wrem (w : BitVec 2) (b : Option Byte) : (s.raiseEvent w b).wrem = s.wrem := rfl
@[simp] theorem State.raiseEvent_rptr (w : BitVec 2) (b : Option Byte) : (s.raiseEvent w b).rptr = s.rptr := rfl
@[simp] theorem State.raiseEvent_rrem (w : BitVec 2) (b : Option Byte) : (s.raiseEvent w b).rrem = s.rrem := rfl
@[simp] theorem State.raiseEvent_cpl (w : BitVec 2) (b : Option Byte) : (s.raiseEvent w b).cpl = s.cpl := rfl
@[simp] theorem State.raiseEvent_phase (w : BitVec 2) (b : Option Byte) : (s.raiseEvent w b).phase = s.phase := rfl
@[simp] theorem State.raiseEvent_tail (w : BitVec 2) (b : Option Byte) : (s.raiseEvent w b).tail = s.tail := rfl
@[simp] theorem State.raiseEvent_sTaddr (w : BitVec 2) (b : Option Byte) : (s.raiseEvent w b).sTaddr = s.sTaddr := rfl
@[simp] theorem State.raiseEvent_sWptr (w : BitVec 2) (b : Option Byte) : (s.raiseEvent w b).sWptr = s.sWptr := rfl
@[simp] theorem State.raiseEvent_sWcnt (w : BitVec 2) (b : Option Byte) : (s.raiseEvent w b).sWcnt = s.sWcnt := rfl
@[simp] theorem State.raiseEvent_sRptr (w : BitVec 2) (b : Option Byte) : (s.raiseEvent w b).sRptr = s.sRptr := rfl
@[simp] theorem State.raiseEvent_sRcnt (w : BitVec 2) (b : Option Byte) : (s.raiseEvent w b).sRcnt = s.sRcnt := rfl
@[simp] theorem State.raiseEvent_sCpl (w : BitVec 2) (b : Option Byte) : (s.raiseEvent w b).sCpl = s.sCpl := rfl
@[simp] theorem State.raiseEvent_seq (w : BitVec 2) (b : Option Byte) : (s.raiseEvent w b).seq = s.seq := rfl
@[simp] theorem State.raiseEvent_dly (w : BitVec 2) (b : Option Byte) : (s.raiseEvent w b).dly = s.dly := rfl
@[simp] theorem State.raiseEvent_resTemp (w : BitVec 2) (b : Option Byte) : (s.raiseEvent w b).resTemp = s.resTemp := rfl
@[simp] theorem State.raiseEvent_resThyst (w : BitVec 2) (b : Option Byte) : (s.raiseEvent w b).resThyst = s.resThyst := rfl
@[simp] theorem State.raiseEvent_resTos (w : BitVec 2) (b : Option Byte) : (s.raiseEvent w b).resTos = s.resTos := rfl
@[simp] theorem State.raiseEvent_errBusyStart (w : BitVec 2) (b : Option Byte) : (s.raiseEvent w b).errBusyStart = s.errBusyStart := rfl
@[simp] theorem State.raiseEvent_errBadDesc (w : BitVec 2) (b : Option Byte) : (s.raiseEvent w b).errBadDesc = s.errBadDesc := rfl
@[simp] theorem State.raiseEvent_errIllCmd (w : BitVec 2) (b : Option Byte) : (s.raiseEvent w b).errIllCmd = s.errIllCmd := rfl
@[simp] theorem State.raiseEvent_evPend (w : BitVec 2) (b : Option Byte) : (s.raiseEvent w b).evPend = true := rfl
@[simp] theorem State.raiseEvent_bcTrace (w : BitVec 2) (b : Option Byte) : (s.raiseEvent w b).bcTrace = s.bcTrace := rfl
@[simp] theorem State.raiseEvent_txbuf (w : BitVec 2) (b : Option Byte) : (s.raiseEvent w b).txbuf = s.txbuf := rfl
@[simp] theorem State.raiseEvent_rxbuf (w : BitVec 2) (b : Option Byte) : (s.raiseEvent w b).rxbuf = s.rxbuf := rfl
@[simp] theorem State.raiseEvent_cplPulse (w : BitVec 2) (b : Option Byte) : (s.raiseEvent w b).cplPulse = s.cplPulse := rfl
@[simp] theorem State.raiseEvent_hostOut (w : BitVec 2) (b : Option Byte) : (s.raiseEvent w b).hostOut = s.hostOut := rfl
@[simp] theorem State.raiseEvent_own (w : BitVec 2) (b : Option Byte) : (s.raiseEvent w b).own = s.own := rfl
@[simp] theorem State.raiseEvent_stim (w : BitVec 2) (b : Option Byte) : (s.raiseEvent w b).stim = s.stim := rfl
@[simp] theorem State.raiseEvent_ansStatus (w : BitVec 2) (b : Option Byte) : (s.raiseEvent w b).ansStatus = some w := rfl
@[simp] theorem State.raiseEvent_ansData (w : BitVec 2) (b : Option Byte) : (s.raiseEvent w b).ansData = b := rfl
@[simp] theorem State.raiseEvent_draws (w : BitVec 2) (b : Option Byte) : (s.raiseEvent w b).draws = s.draws := rfl
@[simp] theorem State.raiseEvent_bcPast (w : BitVec 2) (b : Option Byte) : (s.raiseEvent w b).bcPast = s.bcPast := rfl

/-! ### storeByte -/

@[simp] theorem State.storeByte_taddr (b : Byte) : (s.storeByte b).taddr = s.taddr := rfl
@[simp] theorem State.storeByte_wptr (b : Byte) : (s.storeByte b).wptr = s.wptr := rfl
@[simp] theorem State.storeByte_wrem (b : Byte) : (s.storeByte b).wrem = s.wrem := rfl
@[simp] theorem State.storeByte_rptr (b : Byte) : (s.storeByte b).rptr = s.rptr + 1#8 := rfl
@[simp] theorem State.storeByte_rrem (b : Byte) : (s.storeByte b).rrem = s.rrem := rfl
@[simp] theorem State.storeByte_cpl (b : Byte) : (s.storeByte b).cpl = s.cpl := rfl
@[simp] theorem State.storeByte_phase (b : Byte) : (s.storeByte b).phase = s.phase := rfl
@[simp] theorem State.storeByte_tail (b : Byte) : (s.storeByte b).tail = s.tail := rfl
@[simp] theorem State.storeByte_sTaddr (b : Byte) : (s.storeByte b).sTaddr = s.sTaddr := rfl
@[simp] theorem State.storeByte_sWptr (b : Byte) : (s.storeByte b).sWptr = s.sWptr := rfl
@[simp] theorem State.storeByte_sWcnt (b : Byte) : (s.storeByte b).sWcnt = s.sWcnt := rfl
@[simp] theorem State.storeByte_sRptr (b : Byte) : (s.storeByte b).sRptr = s.sRptr := rfl
@[simp] theorem State.storeByte_sRcnt (b : Byte) : (s.storeByte b).sRcnt = s.sRcnt := rfl
@[simp] theorem State.storeByte_sCpl (b : Byte) : (s.storeByte b).sCpl = s.sCpl := rfl
@[simp] theorem State.storeByte_seq (b : Byte) : (s.storeByte b).seq = s.seq := rfl
@[simp] theorem State.storeByte_dly (b : Byte) : (s.storeByte b).dly = s.dly := rfl
@[simp] theorem State.storeByte_resTemp (b : Byte) : (s.storeByte b).resTemp = s.resTemp := rfl
@[simp] theorem State.storeByte_resThyst (b : Byte) : (s.storeByte b).resThyst = s.resThyst := rfl
@[simp] theorem State.storeByte_resTos (b : Byte) : (s.storeByte b).resTos = s.resTos := rfl
@[simp] theorem State.storeByte_errBusyStart (b : Byte) : (s.storeByte b).errBusyStart = s.errBusyStart := rfl
@[simp] theorem State.storeByte_errBadDesc (b : Byte) : (s.storeByte b).errBadDesc = s.errBadDesc := rfl
@[simp] theorem State.storeByte_errIllCmd (b : Byte) : (s.storeByte b).errIllCmd = s.errIllCmd := rfl
@[simp] theorem State.storeByte_evPend (b : Byte) : (s.storeByte b).evPend = s.evPend := rfl
@[simp] theorem State.storeByte_bcTrace (b : Byte) : (s.storeByte b).bcTrace = s.bcTrace := rfl
@[simp] theorem State.storeByte_txbuf (b : Byte) : (s.storeByte b).txbuf = s.txbuf := rfl
@[simp] theorem State.storeByte_rxbuf (b : Byte) : (s.storeByte b).rxbuf = Memory.write s.rptr.toNat b s.rxbuf := rfl
@[simp] theorem State.storeByte_cplPulse (b : Byte) : (s.storeByte b).cplPulse = s.cplPulse := rfl
@[simp] theorem State.storeByte_hostOut (b : Byte) : (s.storeByte b).hostOut = s.hostOut := rfl
@[simp] theorem State.storeByte_own (b : Byte) : (s.storeByte b).own = s.own := rfl
@[simp] theorem State.storeByte_stim (b : Byte) : (s.storeByte b).stim = s.stim := rfl
@[simp] theorem State.storeByte_ansStatus (b : Byte) : (s.storeByte b).ansStatus = s.ansStatus := rfl
@[simp] theorem State.storeByte_ansData (b : Byte) : (s.storeByte b).ansData = s.ansData := rfl
@[simp] theorem State.storeByte_draws (b : Byte) : (s.storeByte b).draws = s.draws := rfl
@[simp] theorem State.storeByte_bcPast (b : Byte) : (s.storeByte b).bcPast = s.bcPast := rfl

/-! ### reply -/

@[simp] theorem State.reply_taddr (d : HostData) : (s.reply d).taddr = s.taddr := rfl
@[simp] theorem State.reply_wptr (d : HostData) : (s.reply d).wptr = s.wptr := rfl
@[simp] theorem State.reply_wrem (d : HostData) : (s.reply d).wrem = s.wrem := rfl
@[simp] theorem State.reply_rptr (d : HostData) : (s.reply d).rptr = s.rptr := rfl
@[simp] theorem State.reply_rrem (d : HostData) : (s.reply d).rrem = s.rrem := rfl
@[simp] theorem State.reply_cpl (d : HostData) : (s.reply d).cpl = s.cpl := rfl
@[simp] theorem State.reply_phase (d : HostData) : (s.reply d).phase = s.phase := rfl
@[simp] theorem State.reply_tail (d : HostData) : (s.reply d).tail = s.tail := rfl
@[simp] theorem State.reply_sTaddr (d : HostData) : (s.reply d).sTaddr = s.sTaddr := rfl
@[simp] theorem State.reply_sWptr (d : HostData) : (s.reply d).sWptr = s.sWptr := rfl
@[simp] theorem State.reply_sWcnt (d : HostData) : (s.reply d).sWcnt = s.sWcnt := rfl
@[simp] theorem State.reply_sRptr (d : HostData) : (s.reply d).sRptr = s.sRptr := rfl
@[simp] theorem State.reply_sRcnt (d : HostData) : (s.reply d).sRcnt = s.sRcnt := rfl
@[simp] theorem State.reply_sCpl (d : HostData) : (s.reply d).sCpl = s.sCpl := rfl
@[simp] theorem State.reply_seq (d : HostData) : (s.reply d).seq = s.seq := rfl
@[simp] theorem State.reply_dly (d : HostData) : (s.reply d).dly = s.dly := rfl
@[simp] theorem State.reply_resTemp (d : HostData) : (s.reply d).resTemp = s.resTemp := rfl
@[simp] theorem State.reply_resThyst (d : HostData) : (s.reply d).resThyst = s.resThyst := rfl
@[simp] theorem State.reply_resTos (d : HostData) : (s.reply d).resTos = s.resTos := rfl
@[simp] theorem State.reply_errBusyStart (d : HostData) : (s.reply d).errBusyStart = s.errBusyStart := rfl
@[simp] theorem State.reply_errBadDesc (d : HostData) : (s.reply d).errBadDesc = s.errBadDesc := rfl
@[simp] theorem State.reply_errIllCmd (d : HostData) : (s.reply d).errIllCmd = s.errIllCmd := rfl
@[simp] theorem State.reply_evPend (d : HostData) : (s.reply d).evPend = s.evPend := rfl
@[simp] theorem State.reply_bcTrace (d : HostData) : (s.reply d).bcTrace = s.bcTrace := rfl
@[simp] theorem State.reply_txbuf (d : HostData) : (s.reply d).txbuf = s.txbuf := rfl
@[simp] theorem State.reply_rxbuf (d : HostData) : (s.reply d).rxbuf = s.rxbuf := rfl
@[simp] theorem State.reply_cplPulse (d : HostData) : (s.reply d).cplPulse = s.cplPulse := rfl
@[simp] theorem State.reply_hostOut (d : HostData) : (s.reply d).hostOut = some d := rfl
@[simp] theorem State.reply_own (d : HostData) : (s.reply d).own = s.own := rfl
@[simp] theorem State.reply_stim (d : HostData) : (s.reply d).stim = s.stim := rfl
@[simp] theorem State.reply_ansStatus (d : HostData) : (s.reply d).ansStatus = s.ansStatus := rfl
@[simp] theorem State.reply_ansData (d : HostData) : (s.reply d).ansData = s.ansData := rfl
@[simp] theorem State.reply_draws (d : HostData) : (s.reply d).draws = s.draws := rfl
@[simp] theorem State.reply_bcPast (d : HostData) : (s.reply d).bcPast = s.bcPast := rfl

/-! ### clearOutputs -/

@[simp] theorem State.clearOutputs_taddr : (s.clearOutputs).taddr = s.taddr := rfl
@[simp] theorem State.clearOutputs_wptr : (s.clearOutputs).wptr = s.wptr := rfl
@[simp] theorem State.clearOutputs_wrem : (s.clearOutputs).wrem = s.wrem := rfl
@[simp] theorem State.clearOutputs_rptr : (s.clearOutputs).rptr = s.rptr := rfl
@[simp] theorem State.clearOutputs_rrem : (s.clearOutputs).rrem = s.rrem := rfl
@[simp] theorem State.clearOutputs_cpl : (s.clearOutputs).cpl = s.cpl := rfl
@[simp] theorem State.clearOutputs_phase : (s.clearOutputs).phase = s.phase := rfl
@[simp] theorem State.clearOutputs_tail : (s.clearOutputs).tail = s.tail := rfl
@[simp] theorem State.clearOutputs_sTaddr : (s.clearOutputs).sTaddr = s.sTaddr := rfl
@[simp] theorem State.clearOutputs_sWptr : (s.clearOutputs).sWptr = s.sWptr := rfl
@[simp] theorem State.clearOutputs_sWcnt : (s.clearOutputs).sWcnt = s.sWcnt := rfl
@[simp] theorem State.clearOutputs_sRptr : (s.clearOutputs).sRptr = s.sRptr := rfl
@[simp] theorem State.clearOutputs_sRcnt : (s.clearOutputs).sRcnt = s.sRcnt := rfl
@[simp] theorem State.clearOutputs_sCpl : (s.clearOutputs).sCpl = s.sCpl := rfl
@[simp] theorem State.clearOutputs_seq : (s.clearOutputs).seq = s.seq := rfl
@[simp] theorem State.clearOutputs_dly : (s.clearOutputs).dly = s.dly := rfl
@[simp] theorem State.clearOutputs_resTemp : (s.clearOutputs).resTemp = s.resTemp := rfl
@[simp] theorem State.clearOutputs_resThyst : (s.clearOutputs).resThyst = s.resThyst := rfl
@[simp] theorem State.clearOutputs_resTos : (s.clearOutputs).resTos = s.resTos := rfl
@[simp] theorem State.clearOutputs_errBusyStart : (s.clearOutputs).errBusyStart = s.errBusyStart := rfl
@[simp] theorem State.clearOutputs_errBadDesc : (s.clearOutputs).errBadDesc = s.errBadDesc := rfl
@[simp] theorem State.clearOutputs_errIllCmd : (s.clearOutputs).errIllCmd = s.errIllCmd := rfl
@[simp] theorem State.clearOutputs_evPend : (s.clearOutputs).evPend = s.evPend := rfl
@[simp] theorem State.clearOutputs_bcTrace : (s.clearOutputs).bcTrace = s.bcTrace := rfl
@[simp] theorem State.clearOutputs_txbuf : (s.clearOutputs).txbuf = s.txbuf := rfl
@[simp] theorem State.clearOutputs_rxbuf : (s.clearOutputs).rxbuf = s.rxbuf := rfl
@[simp] theorem State.clearOutputs_cplPulse : (s.clearOutputs).cplPulse = none := rfl
@[simp] theorem State.clearOutputs_hostOut : (s.clearOutputs).hostOut = none := rfl
@[simp] theorem State.clearOutputs_own : (s.clearOutputs).own = s.own := rfl
@[simp] theorem State.clearOutputs_stim : (s.clearOutputs).stim = s.stim := rfl
@[simp] theorem State.clearOutputs_ansStatus : (s.clearOutputs).ansStatus = s.ansStatus := rfl
@[simp] theorem State.clearOutputs_ansData : (s.clearOutputs).ansData = s.ansData := rfl
@[simp] theorem State.clearOutputs_draws : (s.clearOutputs).draws = s.draws := rfl
@[simp] theorem State.clearOutputs_bcPast : (s.clearOutputs).bcPast = s.bcPast := rfl

/-! ### What the controller was told -/

@[simp] theorem State.log_bcTold (e : BusEntry) : (s.log e).bcTold = s.bcTold ++ [e] := by
  simp [State.bcTold]

end Sys2Proof.Machine
end

