-- ==== Sys2Proof/Laws/Words.lean ====
section
/-!
SUPPORT. The words the block sends, as the numbers the spec writes them with (40_bus_controller_interface.md R111 to R119), and
what each `send` does: it appends that word to the trace.
-/

namespace Sys2Proof

/-- A command whose argument is a byte (R83). -/
theorem busWord_eq_add (code : BitVec 4) (arg : Byte) : busWord code arg = code.setWidth 12 * 0x100#12 + arg.setWidth 12 := by
  apply BitVec.eq_of_toNat_eq
  have h1 := code.isLt
  have h2 := arg.isLt
  simp only [busWord, BitVec.toNat_append, BitVec.toNat_add, BitVec.toNat_mul, BitVec.toNat_setWidth, BitVec.toNat_ofNat,
    Nat.shiftLeft_eq]
  rw [← Nat.shiftLeft_eq, ← Nat.shiftLeft_add_eq_or_of_lt h2, Nat.shiftLeft_eq]
  omega

/-- The address travels unshifted (R90). -/
theorem addressArg_eq_setWidth (a : Address) : addressArg a = a.setWidth 8 := by
  apply BitVec.eq_of_toNat_eq
  have h := a.isLt
  simp only [addressArg, BitVec.toNat_append, BitVec.toNat_ofNat, BitVec.toNat_setWidth, Nat.zero_mod, Nat.zero_shiftLeft, Nat.zero_or]
  omega

end Sys2Proof

namespace Sys2Proof.Machine

variable (s : State)

@[simp] theorem State.sendConfigure_eq (m : Byte) : s.sendConfigure m = s.log (sent (0x100#12 + m.setWidth 12)) := by
  simp [State.sendConfigure, sent, busWord_eq_add]

@[simp] theorem State.sendReset_eq : s.sendReset = s.log (sent 0x200#12) := rfl

@[simp] theorem State.sendStartWrite_eq (a : Address) :
    s.sendStartWrite a = s.log (sent (0x300#12 + a.setWidth 12)) := by
  simp [State.sendStartWrite, sent, busWord_eq_add, addressArg_eq_setWidth]

@[simp] theorem State.sendStartRead_eq (a : Address) : s.sendStartRead a = s.log (sent (0x400#12 + a.setWidth 12)) := by
  simp [State.sendStartRead, sent, busWord_eq_add, addressArg_eq_setWidth]

@[simp] theorem State.sendAck_eq : s.sendAck = s.log (sent 0x500#12) := rfl

@[simp] theorem State.sendMarkLast_eq : s.sendMarkLast = s.log (sent 0x600#12) := rfl

@[simp] theorem State.sendStatus_eq (w : StatusWord) : s.sendStatus w.bits = s.log (sampled w) := rfl

@[simp] theorem State.sendReadData_eq (b : Byte) : s.sendReadData b = s.log (received b) := rfl

@[simp] theorem State.sendWriteData_eq (b : Byte) : s.sendWriteData b = s.log (sent (0x900#12 + b.setWidth 12)) := by
  simp [State.sendWriteData, sent, busWord_eq_add]

end Sys2Proof.Machine
end

