-- ==== Sys2Proof/Laws/Ops.lean ====
section
/-!
SUPPORT. One lemma per shared operation that says once everything it can do; proofs cite these and do not unfold the operation.
-/

namespace Sys2Proof.Machine

/-- `BadDesc` in numbers (R130). -/
theorem badDesc_eq_false_iff (d : Descriptor) :
    badDesc d = false ↔
      ¬ (d.wcnt = 0#8 ∧ d.rcnt = 0#8) ∧ (0 < d.wcnt.toNat → d.wptr.toNat + d.wcnt.toNat ≤ 256) ∧
      (0 < d.rcnt.toNat → d.rptr.toNat + d.rcnt.toNat ≤ 256) ∧ cplBad d.cpl = false := by
  simp only [badDesc, rangeBad, Bool.or_eq_false_iff, Bool.and_eq_false_iff, decide_eq_false_iff_not]
  constructor
  · rintro ⟨⟨⟨h1, h2⟩, h3⟩, h4⟩
    refine ⟨fun h => ?_, fun h => ?_, fun h => ?_, h4⟩
    · exact h1.elim (fun x => x h.1) (fun x => x h.2)
    · omega
    · omega
  · rintro ⟨h1, h2, h3, h4⟩
    refine ⟨⟨⟨?_, ?_⟩, ?_⟩, h4⟩
    · by_cases h : d.wcnt = 0#8
      · exact .inr fun h' => h1 ⟨h, h'⟩
      · exact .inl h
    · omega
    · omega

/-- A reserved continuation, in bits (R130). -/
theorem cplBad_eq_false_iff (c : BitVec 4) : cplBad c = false ↔ (c.getLsbD 3 = true → (c.extractLsb' 0 3).toNat ≤ 4) := by
  revert c; decide

/-- The live `CPL` names a continuation, or none, exactly when it is not a reserved one. -/
theorem continuationOf_of_not_bad {c : BitVec 4} (h : cplBad c = false) : ∃ k, continuationOf c = .ok k := by
  have all : ∀ c : BitVec 4, cplBad c = false → (continuationOf c).isOk = true := by decide
  have hc := all c h
  cases hk : continuationOf c with
  | ok k => exact ⟨k, rfl⟩
  | error e => rw [hk] at hc; cases hc

/-- What a registered continuation's field holds. -/
theorem continuationOf_some {c : BitVec 4} {k : Continuation} (h : continuationOf c = .ok (some k)) :
    cplSet c = true ∧ cplId c = k.id := by
  cases k <;> revert c <;> decide

/-- No continuation is registered exactly when `set` is 0. -/
theorem continuationOf_none_iff {c : BitVec 4} : continuationOf c = .ok none ↔ cplSet c = false := by
  revert c; decide

/-- `CPL.set <- 0` leaves nothing registered. -/
@[simp] theorem cplSet_cplCleared (c : BitVec 4) : cplSet (cplCleared c) = false := by
  revert c; decide

/-- With nothing registered no reserved continuation is live. -/
theorem cplBad_of_not_set {c : BitVec 4} (h : cplSet c = false) : cplBad c = false := by
  revert c; decide

/-- `EngineStart` once admitted: the whole next state (R130). -/
theorem accept_eq (s : State) (d : Descriptor) :
    s.accept d = { s with
      taddr := d.taddr
      wptr := d.wptr
      wrem := d.wcnt
      rptr := d.rptr
      rrem := d.rcnt
      cpl := d.cpl
      tail := true
      phase := if 0 < d.wcnt.toNat then .writing else .reading
      own := d
      bcTrace := s.bcTrace ++
        [sent 0x200#12,
         sent (if 0 < d.wcnt.toNat then 0x300#12 + d.taddr.setWidth 12 else 0x400#12 + d.taddr.setWidth 12)] } := by
  unfold State.accept
  split <;> simp [State.loaded, State.log]

/-- `EngineStart`: refused while live, refused for a bad descriptor, else admitted (R130). -/
theorem engineStart_cases (d : Descriptor) (s : State) :
    (s.phase.live = true ∧ engineStart d s = (.refused, { s with errBusyStart := true })) ∨
    (s.phase.live = false ∧ badDesc d = true ∧ engineStart d s = (.refused, { s with errBadDesc := true })) ∨
    (s.phase.live = false ∧ badDesc d = false ∧ engineStart d s = (.accepted, s.accept d)) := by
  unfold engineStart
  cases s.phase.live
  · cases badDesc d
    · exact .inr (.inr ⟨rfl, rfl, rfl⟩)
    · exact .inr (.inl ⟨rfl, rfl, rfl⟩)
  · exact .inl ⟨rfl, rfl⟩

/-- The descriptors the protocol layer builds are never bad (R160). -/
theorem badDesc_protoDescriptor {len : Nat} {rcnt : Byte} {c : BitVec 4} (hl : len ≤ 3) (hr : rcnt.toNat ≤ 2)
    (hn : 0 < len ∨ 0 < rcnt.toNat) (hc : cplBad c = false) : badDesc (protoDescriptor len rcnt c) = false := by
  have hlen : (BitVec.ofNat 8 len).toNat = len := by simp; omega
  refine (badDesc_eq_false_iff _).2 ⟨?_, ?_, ?_, hc⟩
  · rintro ⟨h1, h2⟩
    have h1' : (BitVec.ofNat 8 len).toNat = 0 := congrArg BitVec.toNat h1
    have h2' : rcnt.toNat = 0 := congrArg BitVec.toNat h2
    omega
  · simp only [protoDescriptor, hlen, BitVec.toNat_ofNat]; omega
  · simp only [protoDescriptor, BitVec.toNat_ofNat]; omega

/-- `ProtoStart`: refused while live and then `TXBUF` is not touched, else its bytes are written and its descriptor admitted (R160). -/
theorem protoStart_cases {bytes : List Byte} {rcnt : Byte} {c : BitVec 4} (hl : bytes.length ≤ 3) (hr : rcnt.toNat ≤ 2)
    (hn : 0 < bytes.length ∨ 0 < rcnt.toNat) (hc : cplBad c = false) (s : State) :
    (s.phase.live = true ∧ protoStart bytes rcnt c s = (.refused, { s with errBusyStart := true })) ∨
    (s.phase.live = false ∧ protoStart bytes rcnt c s =
      (.accepted, { s with txbuf := Memory.writeFrom 0#8 bytes s.txbuf }.accept (protoDescriptor bytes.length rcnt c))) := by
  unfold protoStart
  by_cases hp : s.phase.live = true
  · exact .inl ⟨hp, by rw [if_pos hp]; rfl⟩
  · refine .inr ⟨by simpa using hp, ?_⟩
    rw [if_neg hp, engineStart, if_neg hp, badDesc_protoDescriptor hl hr hn hc]
    rfl

/-- The first half of a two-transaction read (R165, R166). -/
theorem pointerThenDelay_cases (ptr : Byte) (q : Sequencer) (s : State) :
    (s.phase.live = true ∧ pointerThenDelay ptr q s = { s with errBusyStart := true }) ∨
    (s.phase.live = false ∧ pointerThenDelay ptr q s =
      ({ s with txbuf := Memory.write 0 ptr s.txbuf }.accept (protoDescriptor 1 0#8 0#4)).startDelay q) := by
  rcases protoStart_cases (bytes := [ptr]) (rcnt := 0#8) (c := 0#4) (by simp) (by simp) (by simp) (by decide) s with
    ⟨hp, h⟩ | ⟨hp, h⟩
  · exact .inl ⟨hp, by rw [pointerThenDelay, h]⟩
  · exact .inr ⟨hp, by rw [pointerThenDelay, h]; rfl⟩

/-- A host command answers a next state only while `SEQ = Ready`, and then the one given. -/
theorem foreground_eq_next {s t u : State} (h : foreground s u = .next t) : s.seq = .ready ∧ t = u := by
  unfold foreground at h
  split at h
  · exact ⟨‹_›, by injection h with h; exact h.symm⟩
  · cases h

/-- A decode answers a next state only where both bytes have a value. -/
theorem withDecoded_eq_next {s t : State} {k : Half → State} (h : withDecoded s k = .next t) :
    ∃ b0 b1, Memory.read 0 s.rxbuf = some b0 ∧ Memory.read 1 s.rxbuf = some b1 ∧ t = k (decode12 b0 b1) := by
  unfold withDecoded at h
  split at h
  · injection h with h
    exact ⟨_, _, ‹_›, ‹_›, h.symm⟩
  · cases h
  · cases h

/-- What a continuation run in `Complete` can do: write its own result slot, or for `CHAIN` flag or start (R140, R141, R172 to
R174). -/
theorem runContinuation_eq_next {c : Continuation} {s t : State} (hp : s.phase = .complete)
    (h : runContinuation c s = .next t) :
    (c = .notify ∧ t = s) ∨
    (c = .decodeTemp ∧ ∃ r, t = { s with resTemp := r }) ∨
    (c = .decodeThyst ∧ ∃ r, t = { s with resThyst := r }) ∨
    (c = .decodeTos ∧ ∃ r, t = { s with resTos := r }) ∨
    (c = .chain ∧ badDesc s.staged = true ∧ t = { s with errBadDesc := true }) ∨
    (c = .chain ∧ badDesc s.staged = false ∧ t = s.accept s.staged) := by
  cases c with
  | notify => exact .inl ⟨rfl, by injection h with h; exact h.symm⟩
  | decodeTemp =>
    rw [runContinuation] at h
    obtain ⟨b0, b1, -, -, rfl⟩ := withDecoded_eq_next h
    exact .inr (.inl ⟨rfl, _, rfl⟩)
  | decodeThyst =>
    rw [runContinuation] at h
    obtain ⟨b0, b1, -, -, rfl⟩ := withDecoded_eq_next h
    exact .inr (.inr (.inl ⟨rfl, _, rfl⟩))
  | decodeTos =>
    rw [runContinuation] at h
    obtain ⟨b0, b1, -, -, rfl⟩ := withDecoded_eq_next h
    exact .inr (.inr (.inr (.inl ⟨rfl, _, rfl⟩)))
  | chain =>
    have hl : s.phase.live = false := by rw [hp]; rfl
    rcases engineStart_cases s.staged s with ⟨h1, -⟩ | ⟨-, h1, h2⟩ | ⟨-, h1, h2⟩
    · rw [hl] at h1; cases h1
    · refine .inr (.inr (.inr (.inr (.inl ⟨rfl, h1, ?_⟩))))
      simp only [runContinuation, h2] at h
      injection h with h
      exact h.symm
    · refine .inr (.inr (.inr (.inr (.inr ⟨rfl, h1, ?_⟩))))
      simp only [runContinuation, h2] at h
      injection h with h
      exact h.symm

/-- After an admitted start a transaction is live. -/
theorem accept_live (s : State) (d : Descriptor) : (s.accept d).phase.live = true := by
  rw [accept_eq]; dsimp only; split <;> rfl

/-- The phase after an admitted start is not `Complete`, so `Complete()` does not retire it. -/
theorem accept_phase_ne_complete (s : State) (d : Descriptor) : (s.accept d).phase ≠ .complete := by
  rw [accept_eq]; dsimp only; split <;> simp

/-- What `Complete()` can do (R139): with no continuation it retires; with one it pulses, and retires unless `CHAIN` started the
staged descriptor. -/
theorem complete_eq_next {k : Option Continuation} {s t : State} (h : complete k s = .next t) :
    (k = none ∧ t = { s with phase := .idle, cpl := 0#4, tail := false }) ∨
    (k = some .notify ∧ t = { s with phase := .idle, cpl := 0#4, tail := false, cplPulse := some 0#3 }) ∨
    (k = some .decodeTemp ∧ ∃ r,
      t = { s with phase := .idle, cpl := 0#4, tail := false, cplPulse := some 1#3, resTemp := r }) ∨
    (k = some .decodeThyst ∧ ∃ r,
      t = { s with phase := .idle, cpl := 0#4, tail := false, cplPulse := some 2#3, resThyst := r }) ∨
    (k = some .decodeTos ∧ ∃ r,
      t = { s with phase := .idle, cpl := 0#4, tail := false, cplPulse := some 3#3, resTos := r }) ∨
    (k = some .chain ∧ badDesc s.staged = true ∧
      t = { s with phase := .idle, cpl := 0#4, tail := false, cplPulse := some 4#3, errBadDesc := true }) ∨
    (k = some .chain ∧ badDesc s.staged = false ∧ t = { s with cplPulse := some 4#3 }.accept s.staged) := by
  cases k with
  | none =>
    refine .inl ⟨rfl, ?_⟩
    simp only [complete, State.retire] at h
    injection h with h
    exact h.symm
  | some c =>
    simp only [complete] at h
    split at h
    · rename_i u hu
      injection h with h
      subst h
      rcases runContinuation_eq_next rfl hu with
        ⟨rfl, rfl⟩ | ⟨rfl, r, rfl⟩ | ⟨rfl, r, rfl⟩ | ⟨rfl, r, rfl⟩ | ⟨rfl, hb, rfl⟩ | ⟨rfl, hb, rfl⟩
      · exact .inr (.inl ⟨rfl, rfl⟩)
      · exact .inr (.inr (.inl ⟨rfl, r, rfl⟩))
      · exact .inr (.inr (.inr (.inl ⟨rfl, r, rfl⟩)))
      · exact .inr (.inr (.inr (.inr (.inl ⟨rfl, r, rfl⟩))))
      · exact .inr (.inr (.inr (.inr (.inr (.inl ⟨rfl, hb, rfl⟩)))))
      · refine .inr (.inr (.inr (.inr (.inr (.inr ⟨rfl, hb, ?_⟩)))))
        have hne := accept_phase_ne_complete { s with phase := .complete, cpl := cplCleared s.cpl } s.staged
        change (State.pulse (State.accept _ s.staged) .chain).retire = _
        rw [State.retire, State.pulse_phase, if_neg hne, accept_eq, accept_eq]
        rfl
    · cases h
    · cases h

/-- `Complete()` with the live `CPL`: the continuation it registers, never a reserved one. -/
theorem completeLive_eq_next {s t : State} (h : completeLive s = .next t) :
    ∃ k, continuationOf s.cpl = .ok k ∧ complete k s = .next t := by
  unfold completeLive at h
  split at h
  · exact ⟨_, ‹_›, h⟩
  · cases h

/-- A completion on its own answers a next state only in `Complete`. -/
theorem completing_eq_next {k : Option Continuation} {s t : State} (h : completing k s = .next t) :
    s.phase = .complete ∧ complete k s = .next t := by
  unfold completing at h
  split at h
  · exact ⟨‹_›, h⟩
  · cases h

end Sys2Proof.Machine
end

