-- ==== Sys2Proof/Laws/Engine.lean ====
section
/-!
SUPPORT. What one handler step can do: the inversion of `BUS_EVENT` into its branches (41_transaction_engine.md R132 to R138).
-/

namespace Sys2Proof.Machine

/-- Taking the event and its status sample (R132, R199). -/
theorem takeByteEvent_eq (s : State) (w : StatusWord) :
    s.takeByteEvent w = { s with evPend := false, bcTrace := s.bcTrace ++ [sampled w] } := by
  simp [State.takeByteEvent, State.log]

/-- Branch W1 (R133): the whole next state. -/
theorem branchW1_eq_next {s t : State} (h : branchW1 s = .next t) :
    ∃ b, Memory.read s.wptr.toNat s.txbuf = some b ∧
      t = { s with
        wptr := s.wptr + 1#8
        wrem := s.wrem - 1#8
        bcTrace := s.bcTrace ++ [sent (0x900#12 + b.setWidth 12)] ++ (if s.wrem - 1#8 = 0#8 then [sent 0x600#12] else []) } := by
  unfold branchW1 at h
  split at h
  · cases h
  · rename_i b hb
    refine ⟨b, hb, ?_⟩
    injection h with h
    subst h
    dsimp only
    split <;> simp [State.log]

/-- Branch RD0 (R135): the whole next state. -/
theorem branchRD0_eq (s : State) :
    branchRD0 s = .next { s with
      bcTrace := s.bcTrace ++ [sent 0x500#12] ++ (if s.rrem = 1#8 then [sent 0x600#12] else []) } := by
  unfold branchRD0
  split <;> simp [State.log]

/-- Branch RD1 (R136): the whole next state. -/
theorem branchRD1_eq (s : State) :
    branchRD1 s = .next { s with
      rrem := s.rrem - 1#8
      rptr := s.rptr + 1#8
      rxbuf := Memory.write s.rptr.toNat s.dataAnswer s.rxbuf
      ansData := none
      draws := if s.ansData.isSome then s.draws else s.draws + 1
      bcTrace := s.bcTrace ++ [sent 0x500#12, received s.dataAnswer] ++
        (if s.rrem - 1#8 = 1#8 then [sent 0x600#12] else []) } := by
  unfold branchRD1
  by_cases hr : s.rrem - 1#8 = 1#8
  · simp [State.readData, State.log, State.storeByte, State.tookData, State.dataAnswer, hr]
  · simp [State.readData, State.log, State.storeByte, State.tookData, State.dataAnswer, hr]
    rfl

/-- What is completed by branch RD2 (R137): the last byte stored. -/
theorem branchRD2_eq (s : State) :
    branchRD2 s = completeLive { s with
      rrem := 0#8
      rptr := s.rptr + 1#8
      rxbuf := Memory.write s.rptr.toNat s.dataAnswer s.rxbuf
      ansData := none
      draws := if s.ansData.isSome then s.draws else s.draws + 1
      bcTrace := s.bcTrace ++ [received s.dataAnswer] } := by
  simp [branchRD2, State.readData, State.log, State.storeByte, State.tookData, State.dataAnswer]

/-- The state in which a handler step's branch runs. -/
def State.afterSample (s : State) (w : StatusWord) : State :=
  { s with evPend := false, bcTrace := s.bcTrace ++ [sampled w] }

/-- One handler step is exactly one of its branches (R132 to R138). -/
theorem execBusEvent_eq_next {s t : State} {w : StatusWord} (h : execBusEvent w s = .next t) :
    s.evPend = true ∧
    ((t = s.afterSample w ∧
        (s.phase = .idle ∨ s.phase = .complete ∨ (s.phase = .writing ∧ s.wrem = 0#8 ∧ s.tail = false) ∨
          (s.phase = .reading ∧ (w.phase = .write ∨ s.rrem = 0#8)))) ∨
     (s.phase = .writing ∧ 0 < s.wrem.toNat ∧ branchW1 (s.afterSample w) = .next t) ∨
     (s.phase = .writing ∧ s.wrem = 0#8 ∧ s.tail = true ∧ 0 < s.rrem.toNat ∧
        t = { s.afterSample w with
          tail := false
          phase := .reading
          bcTrace := s.bcTrace ++ [sampled w, sent (0x400#12 + s.taddr.setWidth 12)] }) ∨
     (s.phase = .writing ∧ s.wrem = 0#8 ∧ s.tail = true ∧ s.rrem = 0#8 ∧
        completeLive { s.afterSample w with tail := false } = .next t) ∨
     (s.phase = .reading ∧ w = statusUnprimed ∧ branchRD0 (s.afterSample w) = .next t) ∨
     (s.phase = .reading ∧ w = statusFull ∧ 1 < s.rrem.toNat ∧ branchRD1 (s.afterSample w) = .next t) ∨
     (s.phase = .reading ∧ w = statusFull ∧ s.rrem = 1#8 ∧ branchRD2 (s.afterSample w) = .next t)) := by
  unfold execBusEvent at h
  split at h
  swap
  · cases h
  rename_i he
  refine ⟨he, ?_⟩
  rw [takeByteEvent_eq] at h
  change dispatchEvent w (s.afterSample w) = _ at h
  have zero : ∀ x : Byte, ¬ 0 < x.toNat → x = 0#8 := fun x hx => BitVec.eq_of_toNat_eq (by simp; omega)
  unfold dispatchEvent at h
  split at h
  · rename_i hp
    split at h
    · exact .inr (.inl ⟨hp, ‹_›, h⟩)
    rename_i hw
    split at h
    · rename_i ht
      unfold branchW2 at h
      split at h
      · rename_i hr
        refine .inr (.inr (.inl ⟨hp, zero _ hw, ht, hr, ?_⟩))
        injection h with h
        subst h
        simp [State.log, State.afterSample]
      · rename_i hr
        exact .inr (.inr (.inr (.inl ⟨hp, zero _ hw, ht, zero _ hr, h⟩)))
    · rename_i ht
      injection h with h
      exact .inl ⟨h.symm, .inr (.inr (.inl ⟨hp, zero _ hw, by simpa [State.afterSample] using ht⟩))⟩
  · rename_i hp
    split at h
    · injection h with h
      exact .inl ⟨h.symm, .inr (.inr (.inr ⟨hp, .inl ‹_›⟩))⟩
    rename_i hs
    have hs : w.phase = .read := by
      obtain ⟨p, f⟩ := w
      cases p
      · exact absurd rfl hs
      · rfl
    split at h
    · rename_i hf
      refine .inr (.inr (.inr (.inr (.inl ⟨hp, ?_, h⟩))))
      obtain ⟨p, f⟩ := w
      simp_all [statusUnprimed]
    rename_i hf
    have hw : w = statusFull := by
      obtain ⟨p, f⟩ := w
      simp_all [statusFull]
    split at h
    · exact .inr (.inr (.inr (.inr (.inr (.inl ⟨hp, hw, ‹_›, h⟩)))))
    split at h
    · exact .inr (.inr (.inr (.inr (.inr (.inr ⟨hp, hw, ‹_›, h⟩)))))
    · rename_i h1 h2
      injection h with h
      refine .inl ⟨h.symm, .inr (.inr (.inr ⟨hp, .inr (zero _ fun h0 => h2 ?_)⟩))⟩
      refine BitVec.eq_of_toNat_eq ?_
      change (s.afterSample w).rrem.toNat = 1
      have : (s.afterSample w).rrem = s.rrem := rfl
      rw [this] at h1 ⊢
      omega
  · injection h with h
    exact .inl ⟨h.symm, .inl ‹_›⟩
  · injection h with h
    exact .inl ⟨h.symm, .inr (.inl ‹_›)⟩

end Sys2Proof.Machine
end

