-- ==== Sys2Proof/Laws/Fetch.lean ====
section
/-!
SUPPORT. Which input a step takes, and the inversion of a step into what it can be.
-/

namespace Sys2Proof.Machine

/-- What is taken is one of the inputs, the first that can be, and leaves the others in their order. -/
theorem takeFirst_eq_some {p : Stimulus → Bool} {l : List Stimulus} {x : Stimulus} {rest : List Stimulus}
    (h : takeFirst p l = some (x, rest)) :
    p x = true ∧ ∃ l1 l2, l = l1 ++ x :: l2 ∧ rest = l1 ++ l2 ∧ ∀ y ∈ l1, p y = false := by
  induction l generalizing rest with
  | nil => cases h
  | cons y ys ih =>
    unfold takeFirst at h
    split at h
    · injection h with h
      injection h with h1 h2
      subst h1
      subst h2
      exact ⟨‹_›, [], _, rfl, rfl, by simp⟩
    · rename_i hy
      split at h
      · rename_i z zs hz
        injection h with h
        injection h with h1 h2
        subst h1
        subst h2
        obtain ⟨ht, l1, l2, rfl, rfl, hl⟩ := ih hz
        exact ⟨ht, y :: l1, l2, rfl, rfl, by simpa [hy] using hl⟩
      · cases h

/-- The first input that can be taken is. -/
theorem takeFirst_append {p : Stimulus → Bool} {pre : List Stimulus} {x : Stimulus} {rest : List Stimulus}
    (hpre : ∀ y ∈ pre, p y = false) (hx : p x = true) : takeFirst p (pre ++ x :: rest) = some (x, pre ++ rest) := by
  induction pre with
  | nil => simp [takeFirst, hx]
  | cons y ys ih => simp [takeFirst, hpre y (by simp), ih fun z hz => hpre z (List.mem_cons_of_mem _ hz)]

/-- Nothing is taken where nothing can be. -/
theorem takeFirst_eq_none {p : Stimulus → Bool} {l : List Stimulus} (h : ∀ x ∈ l, p x = false) : takeFirst p l = none := by
  induction l with
  | nil => rfl
  | cons x xs ih => simp [takeFirst, h x (by simp), ih fun y hy => h y (List.mem_cons_of_mem _ hy)]

/-- The inputs that must wait are those `takes` refuses. -/
theorem inputWaits_iff (s : State) (x : Stimulus) : inputWaits s x ↔ s.takes x = false := by
  cases x <;> simp [inputWaits, State.takes, Stimulus.isHost]

/-- A failing read of `wait_idle` leaves only inputs that were there, and itself. -/
theorem mem_pollAgain {s : State} {x : Stimulus} (h : x ∈ s.pollAgain) : x = .host .waitIdle ∨ x ∈ s.stim := by
  unfold State.pollAgain at h
  split at h
  · rename_i y ys hy
    obtain ⟨-, l1, l2, hl, rfl, -⟩ := takeFirst_eq_some hy
    rw [hl]
    simp only [List.mem_cons, List.mem_append] at h ⊢
    tauto
  · simpa using h

/-- The block's reset leaves what the controller was told (R38, R221). -/
@[simp] theorem State.hardReset_bcTold (s : State) : s.hardReset.bcTold = s.bcTold := by
  simp [State.bcTold, State.hardReset, State.reset]

/-- What a delivered input does. -/
def Fetched.outcome : Fetched → Host.Outcome State Fault Refusal
  | .run i t => exec i t
  | .done o => o

theorem step_eq_outcome (s : State) : step s = (fetch s.clearOutputs).outcome := by
  unfold step Fetched.outcome
  cases fetch s.clearOutputs <;> rfl

/-- A step takes the first input that can be taken, if no handler step comes before it. -/
theorem step_of_first {s : State} {pre : List Stimulus} {x : Stimulus} {rest : List Stimulus} (hs : s.stim = pre ++ x :: rest)
    (hpre : ∀ y ∈ pre, inputWaits s y) (ht : s.takes x = true) (hh : x.preempts = true ∨ s.handlerDue = false) :
    step s = (deliver x { s.clearOutputs with stim := pre ++ rest }).outcome := by
  have h1 : ∀ y ∈ pre, s.clearOutputs.takes y = false := fun y hy => (inputWaits_iff s y).1 (hpre y hy)
  have h2 : s.clearOutputs.takes x = true := ht
  have h3 : s.clearOutputs.stim = pre ++ x :: rest := hs
  have h4 : s.clearOutputs.handlerDue = s.handlerDue := rfl
  rw [step_eq_outcome, fetch, pick, h3, takeFirst_append h1 h2]
  dsimp only
  rw [if_pos]
  rw [h4]
  rcases hh with h | h <;> simp [h]

/-- A step that owes a handler step runs it, unless the first input that can be taken comes before it. -/
theorem step_of_handler {s : State} (hd : s.handlerDue = true)
    (hp : ∀ pre x rest, s.stim = pre ++ x :: rest → (∀ y ∈ pre, inputWaits s y) → x.preempts = false) :
    step s = (serve s.clearOutputs).outcome := by
  have h2 : s.clearOutputs.handlerDue = true := hd
  rw [step_eq_outcome, fetch]
  split
  · rename_i x rest hx
    obtain ⟨-, l1, l2, h, -, hl⟩ := takeFirst_eq_some hx
    have hx : x.preempts = false := hp l1 x l2 h fun y hy => (inputWaits_iff s y).2 (hl y hy)
    rw [if_neg (by simp [hx, h2])]
  · rw [if_pos h2]

/-- A step with no handler step due and no input that can be taken only ends the outputs. -/
theorem step_of_nothing {s : State} (hd : s.handlerDue = false) (hn : ∀ x ∈ s.stim, inputWaits s x) :
    step s = .next s.clearOutputs := by
  have h1 : ∀ x ∈ s.clearOutputs.stim, s.clearOutputs.takes x = false := fun x hx => (inputWaits_iff s x).1 (hn x hx)
  have h2 : s.clearOutputs.handlerDue = false := hd
  rw [step_eq_outcome, fetch, pick, takeFirst_eq_none h1]
  dsimp only
  rw [if_neg (by simp [h2])]
  rfl

/-- The completion a word names, run in `Complete`, is `Complete()` for what that word registers (R139). -/
theorem exec_of_decode_completion {c : BitVec 4} {i : Instr} (h : decode (.completion c) = .ok i) :
    ∃ k, continuationOf c = .ok k ∧ ∀ s : State, s.phase = .complete → exec i s = complete k s := by
  simp only [decode, decodeCompletion] at h
  split at h
  · injection h with h
    subst h
    exact ⟨_, ‹_›, fun s hs => by simp [exec, execCplNone, completing, hs]⟩
  · rename_i k hk
    injection h with h
    subst h
    refine ⟨_, hk, fun s hs => ?_⟩
    cases k <;>
      simp [exec, Continuation.instr, execCplNotify, execCplDecodeTemp, execCplDecodeThyst, execCplDecodeTos, execCplChain,
        completing, hs]
  · cases h

/-- `Complete()` begins by setting `PHASE`, whatever it was (R139). -/
theorem complete_of_phase (k : Option Continuation) (s : State) : complete k { s with phase := .complete } = complete k s := by
  cases k <;> rfl

/-- What delivering one input can do. -/
theorem deliver_eq_next {x : Stimulus} {s t : State} (h : (deliver x s).outcome = .next t) :
    (∃ w i, x = .host (.write 0 w) ∧ decode (.host w) = .ok i ∧ exec i s = .next t) ∨
    (∃ w e, x = .host (.write 0 w) ∧ decode (.host w) = .error e ∧ t = s.flagIllCmd) ∨
    (x = .host .waitIdle ∧ t = pollStat s) ∨
    (∃ op, x = .host op ∧ op ≠ .waitIdle ∧ (∀ w, op ≠ .write 0 w) ∧ hostAccess op s = .next t) ∨
    (x = .delayDone ∧ exec .delayDone s = .next t) ∨
    (∃ e w b, x = .byteEvent e w b ∧ t = s.raiseEvent w b) ∨
    (x = .reset ∧ t = s.hardReset) ∨
    (∃ w i, x = .busCommand w ∧ decode (.bus w) = .ok i ∧ exec i s = .next t) := by
  cases x with
  | host op =>
    cases op with
    | write n w =>
      simp only [deliver, deliverHost] at h
      split at h
      · subst_vars
        unfold command at h
        split at h
        · exact .inl ⟨w, _, rfl, ‹_›, h⟩
        · refine .inr (.inl ⟨w, _, rfl, ‹_›, ?_⟩)
          injection h with h
          exact h.symm
      · rename_i hn
        refine .inr (.inr (.inr (.inl ⟨_, rfl, by simp, fun v hv => ?_, h⟩)))
        injection hv with hv _
        exact hn hv
    | waitIdle =>
      refine .inr (.inr (.inl ⟨rfl, ?_⟩))
      injection h with h
      exact h.symm
    | read n => exact .inr (.inr (.inr (.inl ⟨_, rfl, by simp, by simp, h⟩)))
    | writeTx a b => exact .inr (.inr (.inr (.inl ⟨_, rfl, by simp, by simp, h⟩)))
    | readTx a => exact .inr (.inr (.inr (.inl ⟨_, rfl, by simp, by simp, h⟩)))
    | writeRx a b => exact .inr (.inr (.inr (.inl ⟨_, rfl, by simp, by simp, h⟩)))
    | readRx a => exact .inr (.inr (.inr (.inl ⟨_, rfl, by simp, by simp, h⟩)))
  | delayDone => exact .inr (.inr (.inr (.inr (.inl ⟨rfl, h⟩))))
  | byteEvent e w b =>
    refine .inr (.inr (.inr (.inr (.inr (.inl ⟨_, _, _, rfl, ?_⟩)))))
    injection h with h
    exact h.symm
  | reset =>
    refine .inr (.inr (.inr (.inr (.inr (.inr (.inl ⟨rfl, ?_⟩))))))
    injection h with h
    exact h.symm
  | busCommand w =>
    simp only [deliver, busPort] at h
    split at h
    · exact .inr (.inr (.inr (.inr (.inr (.inr (.inr ⟨w, _, rfl, ‹_›, h⟩))))))
    · cases h

/-- What a step can be: nothing, a completion, a handler step, or one input delivered (R5, R198). -/
theorem step_eq_next {s t : State} (h : step s = .next t) :
    t = s.clearOutputs ∨
    (s.phase = .complete ∧ ∃ i, decode (.completion s.cpl) = .ok i ∧ exec i s.clearOutputs = .next t) ∨
    (s.phase ≠ .complete ∧ s.evPend = true ∧
      exec (.busEvent (StatusWord.ofBits s.statusAnswer)) s.clearOutputs.tookStatus = .next t) ∨
    (∃ x rest, pick s.clearOutputs = some (x, rest) ∧ (x.preempts = true ∨ s.handlerDue = false) ∧
      (deliver x { s.clearOutputs with stim := rest }).outcome = .next t) := by
  rw [step_eq_outcome] at h
  have served : (serve s.clearOutputs).outcome = .next t → s.handlerDue = true →
      (s.phase = .complete ∧ ∃ i, decode (.completion s.cpl) = .ok i ∧ exec i s.clearOutputs = .next t) ∨
      (s.phase ≠ .complete ∧ s.evPend = true ∧
        exec (.busEvent (StatusWord.ofBits s.statusAnswer)) s.clearOutputs.tookStatus = .next t) := by
    intro h hd
    unfold serve at h
    split at h
    · rename_i hp
      split at h
      · exact .inl ⟨hp, _, ‹_›, h⟩
      · cases h
    · rename_i hp
      refine .inr ⟨hp, ?_, h⟩
      have hp : s.phase ≠ .complete := hp
      simpa [State.handlerDue, hp] using hd
  unfold fetch at h
  split at h
  · rename_i x rest hx
    split at h
    · rename_i hc
      refine .inr (.inr (.inr ⟨x, rest, hx, ?_, h⟩))
      rcases Bool.or_eq_true _ _ ▸ hc with hc | hc
      · exact .inl hc
      · have hc : (!s.handlerDue) = true := hc
        exact .inr (by simpa using hc)
    · rename_i hc
      have hd : s.handlerDue = true := by
        have : s.clearOutputs.handlerDue = s.handlerDue := rfl
        simp only [this] at hc
        revert hc
        cases s.handlerDue <;> simp
      exact (served h hd).elim (fun h => .inr (.inl h)) (fun h => .inr (.inr (.inl h)))
  · split at h
    · exact (served h ‹_›).elim (fun h => .inr (.inl h)) (fun h => .inr (.inr (.inl h)))
    · injection h with h
      exact .inl h.symm

end Sys2Proof.Machine
end

