-- ==== Sys2Proof/Laws/PerInstr.lean ====
section
/-!
SUPPORT. Per-instruction laws. Family `TableRow`: the encoding of each instruction meets the match and mask of its row of
spec/opcode_table.json, at the row's port (30_encoding.md R82, R84, R86, R87).
-/

namespace Sys2Proof.Laws.TableRow

/-- The encoding of `i` is a word of its row. -/
def Statement (i : Instr) : Prop :=
  match i with
  | .configure _ => ∃ w, encode i = .host w ∧ w &&& 0xFFFFFF00#32 = 0x01000000#32
  | .start => ∃ w, encode i = .host w ∧ w &&& 0xFFFFFFFF#32 = 0x02000000#32
  | .powerUp => ∃ w, encode i = .host w ∧ w &&& 0xFFFFFFFF#32 = 0x10000000#32
  | .powerDown => ∃ w, encode i = .host w ∧ w &&& 0xFFFFFFFF#32 = 0x11000000#32
  | .startConv => ∃ w, encode i = .host w ∧ w &&& 0xFFFFFFFF#32 = 0x12000000#32
  | .readMeas => ∃ w, encode i = .host w ∧ w &&& 0xFFFFFFFF#32 = 0x13000000#32
  | .readLimit _ => ∃ w, encode i = .host w ∧ w &&& 0xFFFEFFFF#32 = 0x14000000#32
  | .writeLimit _ _ => ∃ w, encode i = .host w ∧ w &&& 0xFFFE0000#32 = 0x15000000#32
  | .bcConfigure _ => ∃ w, encode i = .bus w ∧ w &&& 0xF00#12 = 0x100#12
  | .bcReset => ∃ w, encode i = .bus w ∧ w &&& 0xFFF#12 = 0x200#12
  | .bcStartWrite _ => ∃ w, encode i = .bus w ∧ w &&& 0xF80#12 = 0x300#12
  | .bcStartRead _ => ∃ w, encode i = .bus w ∧ w &&& 0xF80#12 = 0x400#12
  | .bcAck => ∃ w, encode i = .bus w ∧ w &&& 0xFFF#12 = 0x500#12
  | .bcMarkLast => ∃ w, encode i = .bus w ∧ w &&& 0xFFF#12 = 0x600#12
  | .bcStatus => ∃ w, encode i = .bus w ∧ w &&& 0xFFF#12 = 0x700#12
  | .bcReadData => ∃ w, encode i = .bus w ∧ w &&& 0xFFF#12 = 0x800#12
  | .bcWriteData _ => ∃ w, encode i = .bus w ∧ w &&& 0xF00#12 = 0x900#12
  | .busEvent _ => ∃ w, encode i = .event w ∧ w &&& 0x0#2 = 0x0#2
  | .cplNotify => ∃ w, encode i = .completion w ∧ w &&& 0xF#4 = 0x8#4
  | .cplDecodeTemp => ∃ w, encode i = .completion w ∧ w &&& 0xF#4 = 0x9#4
  | .cplDecodeThyst => ∃ w, encode i = .completion w ∧ w &&& 0xF#4 = 0xA#4
  | .cplDecodeTos => ∃ w, encode i = .completion w ∧ w &&& 0xF#4 = 0xB#4
  | .cplChain => ∃ w, encode i = .completion w ∧ w &&& 0xF#4 = 0xC#4
  | .cplNone _ => ∃ w, encode i = .completion w ∧ w &&& 0x8#4 = 0x0#4
  | .delayDone => encode i = .delay

theorem configure (mode : Byte) : Statement (.configure mode) :=
  ⟨_, rfl, by revert mode; decide⟩
theorem start : Statement .start := ⟨_, rfl, rfl⟩
theorem powerUp : Statement .powerUp := ⟨_, rfl, rfl⟩
theorem powerDown : Statement .powerDown := ⟨_, rfl, rfl⟩
theorem startConv : Statement .startConv := ⟨_, rfl, rfl⟩
theorem readMeas : Statement .readMeas := ⟨_, rfl, rfl⟩
theorem readLimit (which : Limit) : Statement (.readLimit which) := by
  cases which <;> exact ⟨_, rfl, rfl⟩
theorem writeLimit (which : Limit) (v : Int) : Statement (.writeLimit which v) := by
  refine ⟨_, rfl, ?_⟩
  generalize BitVec.ofInt 16 v = imm
  apply BitVec.eq_of_getLsbD_eq
  intro i hi
  rw [BitVec.getLsbD_and, hostWord_getLsbD]
  interval_cases i <;> simp
theorem bcConfigure (mode : Byte) : Statement (.bcConfigure mode) :=
  ⟨_, rfl, by revert mode; decide⟩
theorem bcReset : Statement .bcReset := ⟨_, rfl, rfl⟩
theorem bcStartWrite (address : Address) : Statement (.bcStartWrite address) :=
  ⟨_, rfl, by revert address; decide⟩
theorem bcStartRead (address : Address) : Statement (.bcStartRead address) :=
  ⟨_, rfl, by revert address; decide⟩
theorem bcAck : Statement .bcAck := ⟨_, rfl, rfl⟩
theorem bcMarkLast : Statement .bcMarkLast := ⟨_, rfl, rfl⟩
theorem bcStatus : Statement .bcStatus := ⟨_, rfl, rfl⟩
theorem bcReadData : Statement .bcReadData := ⟨_, rfl, rfl⟩
theorem bcWriteData (b : Byte) : Statement (.bcWriteData b) :=
  ⟨_, rfl, by revert b; decide⟩
theorem busEvent (status : StatusWord) : Statement (.busEvent status) := ⟨_, rfl, by simp⟩
theorem cplNotify : Statement .cplNotify := ⟨_, rfl, rfl⟩
theorem cplDecodeTemp : Statement .cplDecodeTemp := ⟨_, rfl, rfl⟩
theorem cplDecodeThyst : Statement .cplDecodeThyst := ⟨_, rfl, rfl⟩
theorem cplDecodeTos : Statement .cplDecodeTos := ⟨_, rfl, rfl⟩
theorem cplChain : Statement .cplChain := ⟨_, rfl, rfl⟩
theorem cplNone (id : BitVec 3) : Statement (.cplNone id) :=
  ⟨_, rfl, by revert id; decide⟩
theorem delayDone : Statement .delayDone := rfl

end Sys2Proof.Laws.TableRow
end

