-- ==== Sys2Proof/Tests/Slice0.lean ====
section
/-!
SUPPORT. Tests: the checks of WellFormed, decoding of words written out from the spec, single steps with results from
95_test_vectors.md, and for every obligation with hypotheses a witness that meets them.
-/

namespace Sys2Proof.Tests

open Sys2Proof.Machine

/-! ## WellFormed -/

theorem test_limit_above_range_refused : (Instr.writeLimit .hysteresis 32768).wellFormed = false := by decide
theorem test_limit_below_range_refused : (Instr.writeLimit .overset (-32769)).wellFormed = false := by decide
theorem test_limit_range_ends_accepted :
    (Instr.writeLimit .overset 32767).wellFormed = true ∧ (Instr.writeLimit .hysteresis (-32768)).wellFormed = true := by decide

/-! ## Decoding: 95_test_vectors.md 2.1 and 2.2, and the tables R84, R86, R87 -/

theorem test_decode_configure : decode (.host 0x0100002A#32) = .ok (.configure 0x2A#8) := by decide
theorem test_decode_start : decode (.host 0x02000000#32) = .ok .start := by decide
theorem test_decode_power_up : decode (.host 0x10000000#32) = .ok .powerUp := by decide
theorem test_decode_power_down : decode (.host 0x11000000#32) = .ok .powerDown := by decide
theorem test_decode_start_conv : decode (.host 0x12000000#32) = .ok .startConv := by decide
theorem test_decode_read_meas : decode (.host 0x13000000#32) = .ok .readMeas := by decide
theorem test_decode_read_limit :
    decode (.host 0x14000000#32) = .ok (.readLimit .hysteresis) ∧ decode (.host 0x14010000#32) = .ok (.readLimit .overset) := by
  decide
theorem test_decode_write_limit :
    decode (.host 0x150004B0#32) = .ok (.writeLimit .hysteresis 1200) ∧
    decode (.host 0x1501FFFF#32) = .ok (.writeLimit .overset (-1)) ∧
    decode (.host 0x1500F800#32) = .ok (.writeLimit .hysteresis (-2048)) := by decide
theorem test_decode_bc_configure : decode (.bus 0x12A#12) = .ok (.bcConfigure 0x2A#8) := by decide
theorem test_decode_bc_reset : decode (.bus 0x200#12) = .ok .bcReset := by decide
theorem test_decode_bc_start_write : decode (.bus 0x37F#12) = .ok (.bcStartWrite 0x7F#7) := by decide
theorem test_decode_bc_start_read : decode (.bus 0x448#12) = .ok (.bcStartRead 0x48#7) := by decide
theorem test_decode_bc_ack : decode (.bus 0x500#12) = .ok .bcAck := by decide
theorem test_decode_bc_mark_last : decode (.bus 0x600#12) = .ok .bcMarkLast := by decide
theorem test_decode_bc_status : decode (.bus 0x700#12) = .ok .bcStatus := by decide
theorem test_decode_bc_read_data : decode (.bus 0x800#12) = .ok .bcReadData := by decide
theorem test_decode_bc_write_data : decode (.bus 0x9F0#12) = .ok (.bcWriteData 0xF0#8) := by decide
theorem test_decode_bus_event :
    decode (.event 0b01#2) = .ok (.busEvent { phase := .read, bufferFull := false }) ∧
    decode (.event 0b10#2) = .ok (.busEvent { phase := .write, bufferFull := true }) := by decide
theorem test_decode_cpl_notify : decode (.completion 0b1000#4) = .ok .cplNotify := by decide
theorem test_decode_cpl_decode_temp : decode (.completion 0b1001#4) = .ok .cplDecodeTemp := by decide
theorem test_decode_cpl_decode_thyst : decode (.completion 0b1010#4) = .ok .cplDecodeThyst := by decide
theorem test_decode_cpl_decode_tos : decode (.completion 0b1011#4) = .ok .cplDecodeTos := by decide
theorem test_decode_cpl_chain : decode (.completion 0b1100#4) = .ok .cplChain := by decide
theorem test_decode_cpl_none : decode (.completion 0b0101#4) = .ok (.cplNone 5#3) := by decide
theorem test_decode_delay_done : decode .delay = .ok .delayDone := by decide

/-- 95_test_vectors.md 2.2. -/
theorem test_illegal_host_words :
    decode (.host 0x00000000#32) = .error .unassignedOp ∧ decode (.host 0x03000000#32) = .error .unassignedOp ∧
    decode (.host 0x16000000#32) = .error .unassignedOp ∧ decode (.host 0x10000001#32) = .error .nonzeroImm ∧
    decode (.host 0x10010000#32) = .error .nonzeroWhich ∧ decode (.host 0x14020000#32) = .error .nonzeroZ ∧
    decode (.host 0x13800000#32) = .error .nonzeroZ ∧ decode (.host 0x01000100#32) = .error .nonzeroImm ∧
    decode (.host 0x02000001#32) = .error .nonzeroImm := by decide

/-- R83, R84, R87: codes never emitted, a stray `arg`, an address with bit 7, reserved continuations. -/
theorem test_illegal_bus_and_completion_words :
    decode (.bus 0x000#12) = .error .unassignedCode ∧ decode (.bus 0xA00#12) = .error .unassignedCode ∧
    decode (.bus 0x201#12) = .error .nonzeroArg ∧ decode (.bus 0x380#12) = .error .nonzeroArg ∧
    decode (.completion 0b1101#4) = .error .reservedContinuation ∧
    decode (.completion 0b1111#4) = .error .reservedContinuation := by decide

theorem test_table_words :
    decodeTableWord 32 0x13000000 = some .readMeas ∧ decodeTableWord 16 0x348 = some (.bcStartWrite 0x48#7) ∧
    decodeTableWord 2 3 = some (.busEvent { phase := .read, bufferFull := true }) ∧
    decodeTableWord 8 12 = some .cplChain ∧ decodeTableWord 0 0 = some .delayDone ∧ decodeTableWord 16 0x1200 = none := by decide

/-! ## Single steps -/

/-- Part of the next state, if there is one. -/
def after {α : Type} (o : Host.Outcome State Fault Refusal) (f : State → α) : Option α :=
  match o with
  | .next t => some (f t)
  | .fault _ => none
  | .refused _ => none

/-- The trace, without answers. -/
def words (s : State) : List BusWord := s.bcTrace.map (fun e => e.word)

/-- Reset, with a staged descriptor. -/
def stagedState (d : Descriptor) : State :=
  { State.reset with
    sTaddr := d.taddr, sWptr := d.wptr, sWcnt := d.wcnt, sRptr := d.rptr, sRcnt := d.rcnt, sCpl := d.cpl }

/-- A live write phase with an event pending. -/
def writing (wptr wrem rrem : Byte) (cpl : BitVec 4) : State :=
  { State.reset with
    phase := .writing
    tail := true
    taddr := 0x48#7
    wptr := wptr
    wrem := wrem
    rrem := rrem
    cpl := cpl
    evPend := true
    txbuf := [(2, 0xF0#8), (255, 0xFF#8)]
    own := { taddr := 0x48#7, wptr := wptr, wcnt := wrem, rptr := 0#8, rcnt := rrem, cpl := cpl }
    bcTrace := [sent 0x348#12] }

/-- A live read phase with an event pending. -/
def reading (rptr rrem : Byte) (cpl : BitVec 4) (answer : Option Byte) : State :=
  { State.reset with
    phase := .reading
    tail := true
    taddr := 0x48#7
    rptr := rptr
    rrem := rrem
    cpl := cpl
    evPend := true
    rxbuf := [(0, 0x19#8)]
    own := { taddr := 0x48#7, wptr := 0#8, wcnt := 0#8, rptr := rptr, rcnt := rrem, cpl := cpl }
    ansData := answer
    bcTrace := [sent 0x448#12] }

/-- A completion about to run, with two received bytes. -/
def completionState (b0 b1 : Byte) (cpl : BitVec 4) : State :=
  { State.reset with phase := .complete, cpl := cpl, rxbuf := [(0, b0), (1, b1)] }

/-- R161's example. -/
theorem test_configure : after (exec (.configure 0x2A#8) State.reset) words = some [0x12A#12] := by decide

/-- R130's example. -/
theorem test_start_write :
    after (exec .start (stagedState ⟨0x48#7, 0#8, 3#8, 0#8, 0#8, 0#4⟩)) (fun t => (words t, t.phase, t.wrem, t.tail)) =
      some ([0x200#12, 0x348#12], .writing, 3#8, true) := by decide

/-- 95_test_vectors.md 2.5: the range 255 + 2 leaves the memory, 255 + 1 does not. -/
theorem test_start_descriptor_ends :
    after (exec .start (stagedState ⟨0x48#7, 0#8, 0#8, 255#8, 2#8, 0#4⟩)) (fun t => (t.errBadDesc, words t)) = some (true, []) ∧
    after (exec .start (stagedState ⟨0x48#7, 200#8, 0#8, 255#8, 1#8, 0#4⟩)) (fun t => (t.errBadDesc, words t)) =
      some (false, [0x200#12, 0x448#12]) := by decide

theorem test_power_up :
    after (exec .powerUp State.reset) (fun t => (t.wrem, Memory.read 0 t.txbuf, Memory.read 1 t.txbuf)) =
      some (2#8, some Config.ptrConfig, some Config.cfgPowerUp) := rfl

theorem test_power_down :
    after (exec .powerDown State.reset) (fun t => (t.wrem, Memory.read 1 t.txbuf)) = some (2#8, some Config.cfgPowerDown) := rfl

theorem test_start_conv :
    after (exec .startConv State.reset) (fun t => (t.wrem, Memory.read 0 t.txbuf, t.seq)) =
      some (1#8, some Config.ptrOneshot, .ready) := rfl

theorem test_read_meas :
    after (exec .readMeas State.reset) (fun t => (t.seq, t.wrem, Memory.read 0 t.txbuf)) =
      some (.delayTemp, 1#8, some Config.ptrTemp) := rfl

theorem test_read_limit :
    after (exec (.readLimit .overset) State.reset) (fun t => (t.seq, Memory.read 0 t.txbuf)) =
      some (.delayOs, some Config.ptrTos) := rfl

/-- 95_test_vectors.md 2.7. -/
theorem test_write_limit :
    after (exec (.writeLimit .overset (-1)) State.reset) (fun t => (t.wrem, Memory.read 1 t.txbuf, Memory.read 2 t.txbuf)) =
      some (3#8, some 0xFF#8, some 0xF0#8) := by decide

/-- 95_test_vectors.md 2.7: from `DelayHyst`. -/
theorem test_delay_done :
    after (exec .delayDone { State.reset with seq := .delayHyst }) (fun t => (t.seq, t.phase, t.rrem, t.cpl)) =
      some (.ready, .reading, 2#8, 0b1010#4) := by decide

/-- R133's example, and trace T7: the pointer wraps after index 255. -/
theorem test_branch_w1 :
    after (exec (.busEvent ⟨.read, true⟩) (writing 2#8 1#8 0#8 0#4)) (fun t => (words t, t.wptr, t.wrem)) =
      some ([0x348#12, 0x700#12, 0x9F0#12, 0x600#12], 3#8, 0#8) ∧
    after (exec (.busEvent ⟨.write, false⟩) (writing 255#8 1#8 1#8 0#4)) (fun t => (t.wptr, t.phase)) =
      some (0#8, .writing) := by decide

/-- R136's example and R137: the mark of branch RD1; RD2 takes the last byte with no `ack`. -/
theorem test_branch_rd1_rd2 :
    after (exec (.busEvent ⟨.read, true⟩) (reading 0#8 2#8 0#4 (some 0x19#8)))
        (fun t => (words t, Memory.read 0 t.rxbuf, t.rptr, t.rrem)) =
      some ([0x448#12, 0x700#12, 0x500#12, 0x800#12, 0x600#12], some 0x19#8, 1#8, 1#8) ∧
    after (exec (.busEvent ⟨.read, true⟩) (reading 1#8 1#8 0#4 (some 0#8)))
        (fun t => (words t, Memory.read 1 t.rxbuf, t.rptr, t.phase)) =
      some ([0x448#12, 0x700#12, 0x800#12], some 0#8, 2#8, .idle) := by decide

theorem test_bc_commands :
    after (exec (.bcConfigure 0xFF#8) State.reset) words = some [0x1FF#12] ∧
    after (exec .bcReset State.reset) words = some [0x200#12] ∧
    after (exec (.bcStartWrite 0x48#7) State.reset) words = some [0x348#12] ∧
    after (exec (.bcStartRead 0x48#7) State.reset) words = some [0x448#12] ∧
    after (exec .bcAck State.reset) words = some [0x500#12] ∧ after (exec .bcMarkLast State.reset) words = some [0x600#12] ∧
    after (exec (.bcWriteData 3#8) State.reset) words = some [0x903#12] := by decide

theorem test_bc_queries :
    after (exec .bcStatus { State.reset with ansStatus := some 3#2 }) (fun t => t.bcTrace) = some [⟨0x700#12, .status 3#2⟩] ∧
    after (exec .bcReadData { State.reset with ansData := some 0x19#8 }) (fun t => t.bcTrace) =
      some [⟨0x800#12, .byte 0x19#8⟩] := by decide

theorem test_cpl_notify :
    after (exec .cplNotify (completionState 0#8 0#8 8#4)) (fun t => (t.cplPulse, t.phase)) = some (some 0#3, .idle) := by decide

/-- 95_test_vectors.md 2.4: -25 and 25 degrees. -/
theorem test_cpl_decode_temp :
    after (exec .cplDecodeTemp (completionState 0xE7#8 0x00#8 9#4)) (fun t => t.resTemp) = some 0xFFFC2F70#32 ∧
    after (exec .cplDecodeTemp (completionState 0x19#8 0x00#8 9#4)) (fun t => t.resTemp) = some 0x0003D090#32 := by decide

/-- 95_test_vectors.md 2.4: the sign bit, and the low nibble ignored. -/
theorem test_cpl_decode_limits :
    after (exec .cplDecodeThyst (completionState 0x80#8 0x10#8 10#4)) (fun t => t.resThyst) = some 0xF801#16 ∧
    after (exec .cplDecodeTos (completionState 0x7F#8 0xFF#8 11#4)) (fun t => t.resTos) = some 0x07FF#16 := by decide

/-- Trace T9: `CHAIN` of a bad descriptor. -/
theorem test_cpl_chain_bad :
    after (exec .cplChain (completionState 0#8 0#8 12#4)) (fun t => (t.errBadDesc, t.phase, t.cplPulse, words t)) =
      some (true, .idle, some 4#3, []) := by decide

theorem test_cpl_none :
    after (exec (.cplNone 5#3) (completionState 0#8 0#8 5#4)) (fun t => (t.phase, t.cpl, t.cplPulse)) =
      some (.idle, 0#4, none) := by decide

/-- 95_test_vectors.md 2.3, in and out of the 12-bit range. -/
theorem test_encode_limit :
    encodeLimit (-880) = (0xC9#8, 0x00#8) ∧ encodeLimit (-2048) = (0x80#8, 0x00#8) ∧ encodeLimit (-2049) = (0x7F#8, 0xF0#8) ∧
    encodeLimit 32767 = (0xFF#8, 0xF0#8) ∧ encodeLimit (-32768) = (0x00#8, 0x00#8) := by decide

/-- Program P5, step 4: `STAT` reads 0x105. -/
theorem test_stat_word : { writing 1#8 1#8 0#8 0#4 with evPend := false, errBusyStart := true }.stat = 0x105#32 := by decide

/-- Program P6, step 9: a stalled `wait_idle` reads `STAT` = 0x005 and goes on. -/
theorem test_wait_idle_stalled :
    after (step { writing 1#8 0#8 0#8 0#4 with evPend := false, stim := [.host .waitIdle] }) (fun t => (t.hostOut, t.stim)) =
      some (some (.register 0x005#32), [.host .waitIdle]) := by decide

/-- R122, R126: after the completing event, of a write or of a read, no event conforms; R124: one unprimed event; R128: a pending
event counts as arrived, one behind a reset does not. -/
theorem test_premises :
    bcQuiet { State.reset with bcTrace := writeTrace [(⟨.write, false⟩, 0#8)] [3#8] } = false ∧
    bcQuiet { State.reset with bcTrace := [sent 0x348#12] ++ writeTrace [(⟨.write, false⟩, 0#8)] [3#8] } = true ∧
    bcQuiet { State.reset with
      bcTrace := [sent 0x348#12] ++ writeTrace [(⟨.write, false⟩, 0#8)] [3#8] ++ [sampled ⟨.write, false⟩] } = false ∧
    bcReadPrime { State.reset with bcTrace := [sent 0x448#12, sampled statusUnprimed, sent 0x500#12] } statusUnprimed = false ∧
    (let s := { State.reset with
        bcTrace := [sent 0x448#12, sampled statusUnprimed, sent 0x500#12, sent 0x600#12, sampled statusUnprimed, sent 0x500#12,
          sent 0x600#12, sampled statusFull, received 7#8] };
      bcEnd s = false ∧ bcQuiet s = false) ∧
    conformingEvent (reading 0#8 1#8 0#4 none) statusUnprimed = false ∧
    conformingEvent { reading 0#8 1#8 0#4 none with evPend := false } statusUnprimed = true ∧
    bcProgress { reading 0#8 1#8 0#4 none with bcTrace := [] } = true ∧
    bcProgress { reading 0#8 1#8 0#4 none with evPend := false, bcTrace := [], stim := [.reset, .byteEvent false 3#2 none] } =
      false := by decide

/-- R38, R221: the block's reset does not reach the controller. A write abandoned in mid-sequence may still ask for its byte, a read
between its start and its first event still owes the unprimed one; after a completed transaction there is none (R126). -/
theorem test_premises_over_reset :
    conformingEvent { writing 1#8 1#8 0#8 0#4 with evPend := false }.hardReset ⟨.write, false⟩ = true ∧
    conformingEvent { reading 0#8 1#8 0#4 none with evPend := false }.hardReset statusUnprimed = true ∧
    conformingEvent { reading 0#8 1#8 0#4 none with evPend := false }.hardReset statusFull = false ∧
    bcEnd { writing 1#8 1#8 0#8 0#4 with evPend := false }.hardReset = true ∧
    bcEnd { State.reset with
      bcTrace := [sent 0x448#12, sampled statusUnprimed, sent 0x500#12, sent 0x600#12, sampled statusFull, received 7#8] }.hardReset =
      false ∧
    modeOf { State.reset with bcTrace := [sent 0x12A#12] }.hardReset.bcTold = some 0x2A#8 := by decide

/-- R123, R127: an event served in `Idle` after a reset is not answered, so none follows it; one that `RD0` or `W1` answered is. -/
theorem test_premises_unanswered :
    (let s := { State.reset with bcPast := [sent 0x348#12], bcTrace := [sampled ⟨.write, false⟩] };
      bcQuiet s = true ∧ bcWrite s ⟨.write, false⟩ = false ∧ bcSerial s = false) ∧
    bcSerial { State.reset with bcPast := [sent 0x448#12], bcTrace := [sampled statusUnprimed] } = false ∧
    bcSerial { State.reset with
      bcPast := [sent 0x448#12, sampled statusUnprimed, sent 0x500#12], bcTrace := [sampled statusFull] } = false ∧
    bcSerial { State.reset with bcTrace := [sent 0x448#12, sampled statusUnprimed, sent 0x500#12] } = true ∧
    conformingEvent { writing 1#8 1#8 0#8 0#4 with
      evPend := false, bcTrace := [sent 0x348#12, sampled ⟨.write, false⟩, sent 0x905#12] } ⟨.write, false⟩ = true := by decide

/-- A step that takes a host access runs it: R61, R62, R33. -/
theorem test_step_host_access :
    after (step { State.reset with stim := [.host (.writeTx 4#8 9#8)] }) (fun t => (t.txbuf, t.rxbuf)) = some ([(4, 9#8)], []) ∧
    after (step { State.reset with stim := [.host (.write 3 0x1FF#32)] }) (fun t => t.sWptr) = some 0xFF#8 := by decide

/-- The word `start` stands for is fetched and run: program P3, step 3. -/
theorem test_step_runs_start :
    after (step ((stagedState ⟨0x48#7, 0#8, 1#8, 4#8, 2#8, 8#4⟩).withFetchWord 32 0x02000000)) words =
      some [0x200#12, 0x348#12] := by decide

/-- An event pending comes before a host access (R198). -/
theorem test_step_handler_first :
    after (step { writing 2#8 1#8 0#8 0#4 with stim := [.host (.read 1)] }) (fun t => (t.wrem, t.stim)) =
      some (0#8, [.host (.read 1)]) := by decide

/-- Placed words of the other ports run as the first instruction. -/
theorem test_step_other_ports :
    after (step (State.reset.withFetchWord 16 0x12A)) words = some [0x12A#12] ∧
    after (step (State.reset.withFetchWord 2 3)) words = some [0x700#12] ∧
    after (step (State.reset.withFetchWord 8 8)) (fun t => t.cplPulse) = some (some 0#3) ∧
    after (step (State.reset.withFetchWord 0 0)) (fun t => (t.phase, t.cpl)) = some (.reading, 0b1001#4) := by decide

/-- R93, R94. -/
theorem test_lines :
    (Line.writeLimit .overset (-1)).expand = [.host (.write 0 0x1501FFFF#32)] ∧
    (Line.stage ⟨0x48#7, 0#8, 1#8, 4#8, 2#8, 8#4⟩).expand.length = 6 := by decide

/-! ## Witnesses: for every obligation with hypotheses, values that meet them, clause by clause -/

/-- A delay before the hysteresis read, with no transaction live. -/
def delaying : State := { State.reset with seq := .delayHyst }

/-- A write phase that leaves one byte of a two-byte range to send, in step with its trace, nothing pending. -/
def midWrite : State :=
  { writing 255#8 1#8 1#8 0#4 with
    evPend := false
    own := { taddr := 0x48#7, wptr := 254#8, wcnt := 2#8, rptr := 0#8, rcnt := 1#8, cpl := 0#4 } }

/-- A read phase with a byte acknowledged and the next one, the last, due. -/
def midRead : State :=
  { reading 0#8 1#8 0#4 (some 7#8) with
    evPend := false
    bcTrace := [sent 0x448#12, sampled statusUnprimed, sent 0x500#12, sent 0x600#12] }

theorem witness_decode_encode_agree :
    (Instr.writeLimit .hysteresis (-32768)).wellFormed = true ∧ (Instr.writeLimit .overset 32767).wellFormed = true ∧
    Instr.bcAck.wellFormed = true := by decide

theorem witness_decoded_word_is_the_encoding :
    decode (.host 0x1501FFFF#32) = .ok (.writeLimit .overset (-1)) ∧ decode (.completion 0b0111#4) = .ok (.cplNone 7#3) := by decide

theorem witness_words_legal_iff_row_selected :
    (∃ r ∈ hostRows, 0x010000FF#32 &&& r.2 = r.1) ∧ (∃ r ∈ busRows, 0x37F#12 &&& r.2 = r.1) ∧
    (∀ r ∈ hostRows, 0x16000000#32 &&& r.2 ≠ r.1) ∧ (∀ r ∈ busRows, 0x380#12 &&& r.2 ≠ r.1) := by
  simp [hostRows, busRows]

theorem witness_step_runs_host_command :
    let s : State := { State.reset with stim := [.delayDone, .host (.write 0 0x1501FFFF#32), .reset] }
    s.seq = .ready ∧ s.handlerDue = false ∧ s.stim = [.delayDone] ++ .host (.write 0 0x1501FFFF#32) :: [.reset] ∧
    (∀ y ∈ [.delayDone], inputWaits s y) ∧ decode (.host 0x1501FFFF#32) = .ok (.writeLimit .overset (-1)) :=
  ⟨rfl, rfl, rfl, by simp [inputWaits, State.reset], rfl⟩

/-- A buffer access and a register access behind a delay's end that waits. -/
theorem witness_step_runs_host_access :
    let s : State := { State.reset with stim := [.delayDone, .host (.writeTx 0#8 3#8), .reset] }
    s.seq = .ready ∧ s.handlerDue = false ∧ s.stim = [.delayDone] ++ .host (.writeTx 0#8 3#8) :: [.reset] ∧
    (∀ y ∈ [.delayDone], inputWaits s y) ∧ HostOp.writeTx 0#8 3#8 ≠ .waitIdle ∧ ∀ w, HostOp.writeTx 0#8 3#8 ≠ .write 0 w :=
  ⟨rfl, rfl, rfl, by simp [inputWaits, State.reset], by simp, by simp⟩

/-- The delay's end behind a host access that waits for it. -/
theorem witness_step_runs_delay_done :
    let s : State := { delaying with stim := [.host (.read 1), .delayDone, .reset] }
    s.seq ≠ .ready ∧ s.handlerDue = false ∧ s.stim = [.host (.read 1)] ++ .delayDone :: [.reset] ∧
    ∀ y ∈ [.host (.read 1)], inputWaits s y :=
  ⟨by decide, rfl, rfl, by simp [inputWaits, delaying, Stimulus.isHost]⟩

theorem witness_step_runs_bus_command :
    let s : State := { delaying with stim := [.host .waitIdle, .busCommand 0x37F#12] }
    s.handlerDue = false ∧ s.stim = [.host .waitIdle] ++ .busCommand 0x37F#12 :: [] ∧
    (∀ y ∈ [.host .waitIdle], inputWaits s y) ∧ decode (.bus 0x37F#12) = .ok (.bcStartWrite 0x7F#7) :=
  ⟨rfl, rfl, by simp [inputWaits, delaying, Stimulus.isHost], rfl⟩

/-- A reset stands in the list, behind a host access that can be taken. -/
theorem witness_step_runs_bus_event :
    let s : State := { reading 255#8 1#8 0#4 (some 7#8) with ansStatus := some 3#2, stim := [.host (.read 1), .reset] }
    s.evPend = true ∧ s.phase ≠ .complete ∧
    (∀ pre x rest, s.stim = pre ++ x :: rest → (∀ y ∈ pre, inputWaits s y) → x.preempts = false) ∧
    decode (.event s.statusAnswer) = .ok (.busEvent statusFull) := by
  refine ⟨rfl, by decide, fun pre x rest h hw => ?_, rfl⟩
  cases pre with
  | nil =>
    injection h with h _
    subst h
    rfl
  | cons y ys =>
    injection h with h _
    subst h
    exact absurd (hw _ List.mem_cons_self) (by simp [inputWaits, reading, State.reset])

theorem witness_step_runs_completion :
    let s := completionState 0x19#8 0#8 9#4
    s.phase = .complete ∧
    (∀ pre x rest, s.stim = pre ++ x :: rest → (∀ y ∈ pre, inputWaits s y) → x.preempts = false) ∧
    decode (.completion s.cpl) = .ok .cplDecodeTemp := by
  refine ⟨rfl, fun pre x rest h _ => ?_, rfl⟩
  cases pre <;> cases h

theorem witness_illegal_command_only_flags :
    let s : State := { State.reset with stim := [.delayDone, .host (.write 0 0x14020000#32)] }
    s.seq = .ready ∧ s.handlerDue = false ∧ s.stim = [.delayDone] ++ .host (.write 0 0x14020000#32) :: [] ∧
    (∀ y ∈ [.delayDone], inputWaits s y) ∧ ∀ r ∈ hostRows, 0x14020000#32 &&& r.2 ≠ r.1 :=
  ⟨rfl, rfl, rfl, by simp [inputWaits, State.reset], by simp [hostRows]⟩

theorem witness_host_access_waits_during_delay :
    let s : State := { delaying with stim := [.host (.write 0 0x02000000#32), .host (.read 1)] }
    s.seq ≠ .ready ∧ s.handlerDue = false ∧ s.stim.all Stimulus.isHost = true := by decide

/-- `wait_idle` in Idle, in a stall, and with the event to come behind another host access. -/
theorem witness_wait_idle_polls_stat :
    (let s : State := { State.reset with stim := [.host .waitIdle] };
      s.seq = .ready ∧ s.handlerDue = false ∧ s.stim = [] ++ .host .waitIdle :: [] ∧ s.phase = .idle) ∧
    (let s : State := { midWrite with stim := [.host .waitIdle, .host (.read 8), .delayDone] };
      s.seq = .ready ∧ s.handlerDue = false ∧ s.stim = [] ++ .host .waitIdle :: [.host (.read 8), .delayDone] ∧
      s.phase ≠ .idle ∧ ∀ y ∈ [Stimulus.host (.read 8), .delayDone], y.isHost = true ∨ y = .delayDone) ∧
    (let s : State := { midWrite with stim := [.delayDone, .host .waitIdle, .host (.read 8), .byteEvent false 0#2 none] };
      s.seq = .ready ∧ s.handlerDue = false ∧
      s.stim = [.delayDone] ++ .host .waitIdle :: ([.host (.read 8)] ++ .byteEvent false 0#2 none :: []) ∧
      (∀ y ∈ [.delayDone], inputWaits s y) ∧ s.phase ≠ .idle ∧
      (∀ z ∈ [Stimulus.host (.read 8)], z.isHost = true ∨ z = .delayDone) ∧
      (Stimulus.byteEvent false 0#2 none).isHost = false ∧ Stimulus.byteEvent false 0#2 none ≠ .delayDone) :=
  ⟨by decide, by decide, by decide, by decide, by decide, by simp [inputWaits, midWrite, writing, State.reset], by decide, by decide,
    by decide, by decide⟩

theorem witness_byte_events_raise_and_merge :
    (let s : State := { delaying with stim := [.host (.read 1), .byteEvent false 3#2 (some 7#8)] };
      s.handlerDue = false ∧ s.stim = [.host (.read 1)] ++ .byteEvent false 3#2 (some 7#8) :: [] ∧
      ∀ y ∈ [.host (.read 1)], inputWaits s y) ∧
    (let s : State := { writing 255#8 1#8 0#8 0#4 with stim := [.delayDone, .byteEvent true 3#2 (some 7#8)] };
      s.evPend = true ∧ s.stim = [.delayDone] ++ .byteEvent true 3#2 (some 7#8) :: [] ∧ ∀ y ∈ [.delayDone], inputWaits s y) :=
  ⟨⟨rfl, rfl, by simp [inputWaits, delaying, Stimulus.isHost]⟩, ⟨rfl, rfl, by simp [inputWaits, writing, State.reset]⟩⟩

theorem witness_reset_input :
    let s : State := { writing 255#8 1#8 0#8 0#4 with seq := .delayOs, stim := [.host (.read 1), .reset] }
    s.stim = [.host (.read 1)] ++ .reset :: [] ∧ ∀ y ∈ [.host (.read 1)], inputWaits s y :=
  ⟨rfl, by simp [inputWaits, Stimulus.isHost]⟩

theorem witness_start_while_live_only_flags :
    (midWrite.phase.live = true ∧ midWrite.seq = .ready) ∧
    ({ midWrite with seq := .delayOs }.phase.live = true ∧ { midWrite with seq := .delayOs }.seq ≠ .ready) := by decide

theorem witness_start_refuses_bad_descriptor :
    State.reset.phase.live = false ∧ State.reset.seq = .ready ∧
    (State.reset.sWcnt = 0#8 ∧ State.reset.sRcnt = 0#8) ∧
    (let s := stagedState ⟨0x48#7, 254#8, 3#8, 0#8, 0#8, 0#4⟩; 0 < s.sWcnt.toNat ∧ 256 < s.sWptr.toNat + s.sWcnt.toNat) ∧
    (let s := stagedState ⟨0x48#7, 0#8, 0#8, 255#8, 2#8, 0#4⟩; 0 < s.sRcnt.toNat ∧ 256 < s.sRptr.toNat + s.sRcnt.toNat) ∧
    (let s := stagedState ⟨0x48#7, 0#8, 1#8, 0#8, 0#8, 0b1101#4⟩;
      s.sCpl.getLsbD 3 = true ∧ 5 ≤ (s.sCpl.extractLsb' 0 3).toNat) := by decide

theorem witness_start_stores_and_starts :
    let s := stagedState ⟨0x7F#7, 253#8, 3#8, 255#8, 1#8, 0b1100#4⟩
    s.phase.live = false ∧ s.seq = .ready ∧ ¬ (s.sWcnt = 0#8 ∧ s.sRcnt = 0#8) ∧
    (0 < s.sWcnt.toNat → s.sWptr.toNat + s.sWcnt.toNat ≤ 256) ∧ (0 < s.sRcnt.toNat → s.sRptr.toNat + s.sRcnt.toNat ≤ 256) ∧
    (s.sCpl.getLsbD 3 = true → (s.sCpl.extractLsb' 0 3).toNat ≤ 4) := by decide

theorem witness_start_stores_and_starts_read_only :
    let s := stagedState ⟨0x48#7, 200#8, 0#8, 255#8, 1#8, 0b0101#4⟩
    s.phase.live = false ∧ s.seq = .ready ∧ ¬ (s.sWcnt = 0#8 ∧ s.sRcnt = 0#8) ∧
    (0 < s.sWcnt.toNat → s.sWptr.toNat + s.sWcnt.toNat ≤ 256) ∧ (0 < s.sRcnt.toNat → s.sRptr.toNat + s.sRcnt.toNat ≤ 256) ∧
    (s.sCpl.getLsbD 3 = true → (s.sCpl.extractLsb' 0 3).toNat ≤ 4) := by decide

theorem witness_ready_and_idle : State.reset.seq = .ready ∧ State.reset.phase.live = false := by decide

/-- SensorWritesStartOneTransaction: the bytes of a write of a limit, at both ends of the immediate. -/
theorem witness_sensor_writes :
    (∃ v : Int, Instr.writeLimit .overset 32767 = .writeLimit .overset v ∧ [Config.ptrTos, 0xFF#8, 0xF0#8] = [Config.ptrTos,
      (BitVec.ofInt 16 v).extractLsb' 4 8, (BitVec.ofInt 16 v).extractLsb' 0 4 ++ 0#4]) ∧
    (∃ v : Int, Instr.writeLimit .hysteresis (-32768) = .writeLimit .hysteresis v ∧ [Config.ptrThyst, 0#8, 0#8] = [Config.ptrThyst,
      (BitVec.ofInt 16 v).extractLsb' 4 8, (BitVec.ofInt 16 v).extractLsb' 0 4 ++ 0#4]) :=
  ⟨⟨32767, rfl, rfl⟩, ⟨-32768, rfl, rfl⟩⟩

theorem witness_delay_done_starts_the_read :
    delaying.phase.live = false ∧ delaying.seq = .delayHyst ∧ { delaying with seq := .delayTemp }.seq = .delayTemp ∧
    { delaying with seq := .delayOs }.seq = .delayOs := by decide

theorem witness_bus_queries :
    { State.reset with ansStatus := some 2#2 }.ansStatus = some 2#2 ∧ { State.reset with ansData := some 255#8 }.ansData = some 255#8 ∧
    State.reset.ansStatus = none ∧ State.reset.ansData = none := by decide

theorem witness_write_event_sends_one_byte :
    let s := writing 255#8 1#8 0#8 0#4
    s.evPend = true ∧ s.phase = .writing ∧ 0 < s.wrem.toNat ∧ Memory.read s.wptr.toNat s.txbuf = some 0xFF#8 := by decide

theorem witness_exhausted_write :
    (let s := writing 0#8 0#8 255#8 0#4;
      s.evPend = true ∧ s.phase = .writing ∧ s.wrem = 0#8 ∧ s.tail = true ∧ 0 < s.rrem.toNat) ∧
    (let s := writing 0#8 0#8 0#8 0b1000#4;
      s.evPend = true ∧ s.phase = .writing ∧ s.wrem = 0#8 ∧ s.tail = true ∧ s.rrem = 0#8 ∧
      decode (.completion s.cpl) = .ok .cplNotify) := by decide

theorem witness_unprimed_read : (reading 255#8 1#8 0#4 none).evPend = true ∧ (reading 255#8 1#8 0#4 none).phase = .reading := by decide

theorem witness_read_event_stores_one_byte :
    let s := reading 254#8 2#8 0#4 (some 0x19#8)
    s.evPend = true ∧ s.phase = .reading ∧ 1 < s.rrem.toNat ∧ s.ansData = some 0x19#8 := by decide

theorem witness_last_read_event_completes :
    let s := reading 255#8 1#8 0b0111#4 (some 0x77#8)
    s.evPend = true ∧ s.phase = .reading ∧ s.rrem = 1#8 ∧ s.ansData = some 0x77#8 ∧
    decode (.completion s.cpl) = .ok (.cplNone 7#3) := by decide

theorem witness_last_read_event_decodes :
    let s := reading 1#8 1#8 0b1001#4 (some 0#8)
    s.evPend = true ∧ s.phase = .reading ∧ s.rrem = 1#8 ∧ s.rptr = 1#8 ∧ s.ansData = some 0#8 ∧
    Memory.read 0 s.rxbuf = some 0x19#8 ∧ s.cpl = 0b1001#4 := by decide

theorem witness_unmatched_event :
    { State.reset with evPend := true }.evPend = true ∧ { State.reset with evPend := true }.phase = .idle ∧
    (reading 0#8 2#8 0#4 none).phase = .reading ∧
    (let s := { writing 0#8 0#8 0#8 0#4 with tail := false }; s.phase = .writing ∧ s.wrem = 0#8 ∧ s.tail = false) ∧
    (let s := reading 0#8 0#8 0#4 none; s.evPend = true ∧ s.phase = .reading ∧ s.rrem = 0#8) := by decide

theorem witness_unwritten_byte :
    (let s := writing 0#8 1#8 0#8 0#4;
      s.evPend = true ∧ s.phase = .writing ∧ 0 < s.wrem.toNat ∧ Memory.read s.wptr.toNat s.txbuf = none) ∧
    (let s : State := { completionState 0#8 0#8 9#4 with rxbuf := [] }; s.phase = .complete ∧ Memory.read 0 s.rxbuf = none) ∧
    (let s : State := { completionState 0#8 0#8 9#4 with rxbuf := [(0, 7#8)] };
      s.phase = .complete ∧ Memory.read 0 s.rxbuf = some 7#8 ∧ Memory.read 1 s.rxbuf = none) ∧
    Memory.read (255#8 : Byte).toNat State.reset.txbuf = none ∧ State.reset.ownsRx 255#8 = false ∧
    Memory.read (255#8 : Byte).toNat State.reset.rxbuf = none := by decide

theorem witness_completing :
    let s := completionState 0x80#8 0xFF#8 12#4
    s.phase = .complete ∧ Memory.read 0 s.rxbuf = some 0x80#8 ∧ Memory.read 1 s.rxbuf = some 0xFF#8 ∧ badDesc s.staged = true ∧
    badDesc { s with sWcnt := 1#8, sWptr := 255#8 }.staged = false := by decide

theorem witness_pulse :
    ∃ t, step (completionState 0x19#8 0#8 9#4) = .next t ∧ t.cplPulse = some 1#3 := ⟨_, rfl, rfl⟩

theorem witness_handler_step : ∃ t, exec (.busEvent ⟨.write, true⟩) (writing 255#8 1#8 0#8 0#4) = .next t := ⟨_, rfl⟩

theorem witness_handler_step_keeps_rxbuf :
    (writing 255#8 1#8 0#8 0#4).phase ≠ .reading ∧ cplSet (writing 255#8 1#8 0#8 0#4).cpl = false := by decide

theorem witness_completion_frame :
    (∃ t, exec .cplDecodeTos (completionState 0x80#8 0#8 11#4) = .next t) ∧
    ∃ t, exec .cplChain (completionState 0#8 0#8 12#4) = .next t := ⟨⟨_, rfl⟩, ⟨_, rfl⟩⟩

theorem witness_host_command_frame :
    (∃ t, exec (.writeLimit .overset (-1)) State.reset = .next t) ∧ (∃ t, exec .readMeas State.reset = .next t) ∧
    ∃ t, exec .start State.reset = .next t := ⟨⟨_, rfl⟩, ⟨_, rfl⟩, ⟨_, rfl⟩⟩

theorem witness_host_access_frame :
    (∃ t, hostAccess (.writeTx 255#8 7#8) State.reset = .next t) ∧ ∃ t, hostAccess (.write 7 0xF#32) State.reset = .next t :=
  ⟨⟨_, rfl⟩, ⟨_, rfl⟩⟩

theorem witness_register_number : (17 : Nat) ≠ 0 ∧ (2 : Nat) ≠ 0 ∧ (7 : Nat) ≠ 0 := by decide

/-- Both ends of the window, and the bytes beside them. -/
theorem witness_host_buffer_access :
    midWrite.phase.live = true ∧
    (∀ a : Byte, a = 254#8 ∨ a = 255#8 →
      midWrite.own.wptr.toNat ≤ a.toNat ∧ a.toNat < midWrite.own.wptr.toNat + midWrite.own.wcnt.toNat) ∧
    ¬ (midWrite.phase.live = true ∧ midWrite.own.wptr.toNat ≤ (253#8 : Byte).toNat ∧
      (253#8 : Byte).toNat < midWrite.own.wptr.toNat + midWrite.own.wcnt.toNat) ∧
    Memory.read (255#8 : Byte).toNat midWrite.txbuf = some 0xFF#8 ∧
    (midWrite.own.rptr.toNat ≤ (0#8 : Byte).toNat ∧
      (0#8 : Byte).toNat < midWrite.own.rptr.toNat + midWrite.own.rcnt.toNat) ∧
    ¬ (midWrite.phase.live = true ∧ midWrite.own.rptr.toNat ≤ (1#8 : Byte).toNat ∧
      (1#8 : Byte).toNat < midWrite.own.rptr.toNat + midWrite.own.rcnt.toNat) ∧
    Memory.read (1#8 : Byte).toNat { midWrite with rxbuf := [(1, 7#8)] }.rxbuf = some 7#8 := by decide

theorem witness_limit_round_trip :
    (-2048 : Int) ≤ -2048 ∧ (-2048 : Int) ≤ 2047 ∧ (2047 : Int) ≤ 2047 ∧ ((2048 : Int) < -2048 ∨ (2047 : Int) < 2048) ∧
    ((-2049 : Int) < -2048 ∨ (2047 : Int) < -2049) := by decide

theorem witness_encoded_limit :
    (BitVec.ofInt 16 2048).extractLsb' 0 12 = (BitVec.ofInt 16 (-2048)).extractLsb' 0 12 ∧ encodeLimit 2047 = encodeLimit 2047 := by
  decide

theorem witness_decode_low_nibble : (0xFF#8 : Byte).extractLsb' 4 4 = (0xF0#8 : Byte).extractLsb' 4 4 := by decide

theorem witness_memory : Memory.wf [(2, 0xF0#8), (255, 0xFF#8)] = true ∧ 255 < 256 := by decide

theorem witness_invariants : midWrite.Inv ∧ midWrite.WindowInv := by
  constructor <;> constructor <;> decide

theorem witness_invariants_step : ∃ t, step midWrite = .next t := ⟨_, rfl⟩

theorem witness_engine_stays_in_its_window :
    ({ midWrite with evPend := true }.Inv ∧ { midWrite with evPend := true }.WindowInv) ∧
    (∃ t, exec (.busEvent ⟨.write, false⟩) { midWrite with evPend := true } = .next t) ∧
    0 < midWrite.wrem.toNat := by
  refine ⟨⟨?_, ?_⟩, ⟨_, rfl⟩, by decide⟩ <;> constructor <;> decide

/-- A completing event with `NOTIFY`, and one with `CHAIN` of a good descriptor. -/
theorem witness_counters :
    (∃ t, exec (.busEvent statusFull) (reading 254#8 1#8 8#4 (some 7#8)) = .next t ∧ t.rrem = 0#8) ∧
    ∃ t, exec (.busEvent statusFull) { reading 254#8 1#8 12#4 (some 7#8) with sRcnt := 9#8 } = .next t ∧ t.rrem = 9#8 :=
  ⟨⟨_, rfl, rfl⟩, ⟨_, rfl, rfl⟩⟩

theorem witness_writes_drain_before_reads :
    (∃ t, exec (.busEvent statusFull) (reading 255#8 1#8 0#4 (some 7#8)) = .next t ∧
      t.rxbuf ≠ (reading 255#8 1#8 0#4 (some 7#8)).rxbuf) ∧
    ∃ t, step { writing 0#8 0#8 1#8 0#4 with ansStatus := some 0#2 } = .next t ∧ t.phase = .reading :=
  ⟨⟨_, rfl, by decide⟩, ⟨_, rfl, rfl⟩⟩

/-- No input but a host access comes first in a list that starts with one the port can take. -/
theorem not_comesFirst_of_host {s : State} {op : HostOp} {rest : List Stimulus} {x : Stimulus} (hr : s.seq = .ready)
    (h : s.stim = .host op :: rest) (hx : x.isHost = false) : ¬ comesFirst s x := by
  rintro ⟨pre, post, hs, hw⟩
  rw [h] at hs
  cases pre with
  | nil =>
    injection hs with hs _
    subst hs
    cases hx
  | cons y ys =>
    injection hs with hs _
    subst hs
    exact absurd (hw _ List.mem_cons_self) (by simp [inputWaits, hr])

/-- A live transaction with every flag set and a reset behind a host access. -/
def flagged : State :=
  { midWrite with errBusyStart := true, errBadDesc := true, errIllCmd := true, stim := [.host (.read 1), .reset] }

theorem witness_no_reset_first : ¬ comesFirst flagged .reset ∧ ∃ t, step flagged = .next t :=
  ⟨not_comesFirst_of_host rfl rfl rfl, ⟨_, rfl⟩⟩

theorem witness_results_change :
    ¬ comesFirst (completionState 0x19#8 0#8 9#4) .reset ∧
    ∃ t, step (completionState 0x19#8 0#8 9#4) = .next t ∧ t.resTemp ≠ (completionState 0x19#8 0#8 9#4).resTemp := by
  refine ⟨?_, _, rfl, by decide⟩
  rintro ⟨pre, _, h, _⟩
  cases pre <;> cases h

/-- With a reset to come, and with nothing to come. -/
theorem witness_stall :
    (flagged.phase.live = true ∧ flagged.evPend = false ∧ ¬ comesFirst flagged .reset ∧
      (∀ early w b, ¬ comesFirst flagged (.byteEvent early w b)) ∧ flagged.stalled = true) ∧
    midWrite.phase.live = true ∧ midWrite.evPend = false ∧ (∀ x, ¬ comesFirst midWrite x) ∧ midWrite.stim = [] ∧
    ∃ t, step midWrite = .next t := by
  refine ⟨⟨rfl, rfl, not_comesFirst_of_host rfl rfl rfl, fun _ _ _ => not_comesFirst_of_host rfl rfl rfl, by decide⟩, rfl, rfl, ?_, rfl,
    _, rfl⟩
  rintro x ⟨pre, _, h, _⟩
  cases pre <;> cases h

/-- A write-only transaction at its last event, and a foreground access in `Idle`. -/
theorem witness_quiet_controller :
    (let s := { writing 1#8 0#8 0#8 0#4 with bcTrace := [sent 0x348#12, sampled ⟨.write, false⟩, sent 0x905#12, sent 0x600#12] };
      s.Inv ∧ s.InPhase ∧ s.quietWhenIdle ∧ s.handlerDue = true ∧ ¬ comesFirst s .reset ∧
      s.phase.live = true ∧ ∃ t, step s = .next t ∧ t.phase.live = false) ∧
    (let s : State := { State.reset with stim := [.host (.read 1)] };
      s.Inv ∧ s.InPhase ∧ s.quietWhenIdle ∧ (∀ w, ¬ comesFirst s (.busCommand w)) ∧ s.phase.live = false) := by
  refine ⟨⟨?_, ?_, by decide, by decide, ?_, rfl, _, rfl, rfl⟩, ?_, ?_, by decide, fun w => not_comesFirst_of_host rfl rfl rfl, rfl⟩
  case refine_3 =>
    rintro ⟨pre, _, h, _⟩
    cases pre <;> cases h
  all_goals constructor <;> decide

theorem witness_conforming_event :
    (midWrite.Inv ∧ midWrite.phase.live = true ∧ sequenceInStep midWrite = true ∧
      conformingEvent midWrite ⟨.write, false⟩ = true ∧ 1 < midWrite.eventsOwed) ∧
    (midRead.Inv ∧ midRead.phase.live = true ∧ sequenceInStep midRead = true ∧
      conformingEvent midRead statusFull = true ∧ midRead.eventsOwed ≤ 1) ∧
    (∃ t, exec (.busEvent ⟨.write, false⟩) { midWrite with evPend := true } = .next t) ∧
    ∃ t, exec (.busEvent statusFull) { midRead with evPend := true } = .next t := by
  refine ⟨⟨?_, by decide, by decide, by decide, by decide⟩, ⟨?_, by decide, by decide, by decide, by decide⟩,
    ⟨_, rfl⟩, ⟨_, rfl⟩⟩ <;> constructor <;> decide

theorem witness_write_phase :
    midWrite.phase = .writing ∧ [((⟨.read, true⟩ : StatusWord), 9#8)].length = midWrite.wrem.toNat ∧
    [0xFF#8].length = midWrite.wrem.toNat ∧ 0 < midWrite.wrem.toNat ∧ midWrite.wptr.toNat + midWrite.wrem.toNat ≤ 256 ∧
    ∀ k, k < midWrite.wrem.toNat → Memory.read (midWrite.wptr.toNat + k) midWrite.txbuf = [0xFF#8][k]? := by decide

theorem witness_read_phase :
    let s := reading 254#8 2#8 0#4 none
    s.phase = .reading ∧ 0 < s.rrem.toNat ∧ [1#8, 2#8].length = s.rrem.toNat ∧ s.rptr.toNat + s.rrem.toNat ≤ 256 ∧
    cplSet s.cpl = false := by decide

theorem witness_transaction :
    let s : State := { stagedState ⟨0x7F#7, 255#8, 1#8, 255#8, 1#8, 0#4⟩ with txbuf := [(255, 0xFF#8)] }
    s.phase.live = false ∧ s.seq = .ready ∧ badDesc s.staged = false ∧ cplSet s.sCpl = false ∧
    [((⟨.write, false⟩ : StatusWord), 0#8)].length = s.sWcnt.toNat ∧ [0xFF#8].length = s.sWcnt.toNat ∧
    [0x77#8].length = s.sRcnt.toNat ∧
    ∀ k, k < s.sWcnt.toNat → Memory.read (s.sWptr.toNat + k) s.txbuf = [0xFF#8][k]? := by decide

end Sys2Proof.Tests
end

/-!
PROOFS of the family 10_state: what one step can do to the state, said once.
-/

namespace Sys2Proof.Machine

/-! ## The moves of the live registers -/

/-- The live registers as an admitted start loads them (R130). -/
def State.started (s : State) (d : Descriptor) : State :=
  { s with
    taddr := d.taddr
    wptr := d.wptr
    wrem := d.wcnt
    rptr := d.rptr
    rrem := d.rcnt
    cpl := d.cpl
    tail := true
    phase := if 0 < d.wcnt.toNat then .writing else .reading
    own := d }

/-- The live registers after one byte was sent (R133). -/
def State.movedWrite (s : State) : State := { s with wptr := s.wptr + 1#8, wrem := s.wrem - 1#8 }

/-- The live registers after one byte was received (R136). -/
def State.movedRead (s : State) : State := { s with rptr := s.rptr + 1#8, rrem := s.rrem - 1#8 }

/-- The live registers after the write phase gave way to the read phase (R134). -/
def State.turnedToRead (s : State) : State := { s with tail := false, phase := .reading }

/-- What one instruction, or one step, can do to the live registers. -/
inductive LiveEffect (s t : State) : Prop
  | kept (h : sameLive s t)
  | started (d : Descriptor) (hd : badDesc d = false) (h : sameLive (s.started d) t)
  | sentByte (hp : s.phase = .writing) (hw : 0 < s.wrem.toNat) (h : sameLive s.movedWrite t)
  | turned (hp : s.phase = .writing) (hw : s.wrem = 0#8) (hr : 0 < s.rrem.toNat) (h : sameLive s.turnedToRead t)
  | receivedByte (hp : s.phase = .reading) (hr : 1 < s.rrem.toNat) (h : sameLive s.movedRead t)
  /-- The transaction ended, by its completion or by reset: nothing is left to move, given what the invariant says of `Reading` and
  `Complete`. -/
  | ended (hp : t.phase = .idle) (hc : t.cpl = 0#4) (ht : t.tail = false)
      (hdone : (s.phase = .reading → s.wrem = 0#8) → (s.phase = .complete → s.wrem = 0#8 ∧ s.rrem = 0#8) →
        t.wrem = 0#8 ∧ t.rrem = 0#8)

/-- Both buffers keep their canonical form. -/
structure BuffersKept (s t : State) : Prop where
  txbuf : Memory.wf s.txbuf = true → Memory.wf t.txbuf = true := by exact id
  rxbuf : Memory.wf s.rxbuf = true → Memory.wf t.rxbuf = true := by exact id

/-- What only a reset undoes: the flags are sticky (R31), the trace grows (R32), a result slot changes only with its own pulse
(R201). The default of each field is that `t` holds it as `s` does, so that a proof gives only the fields that differ. -/
structure Lasting (s t : State) : Prop extends BuffersKept s t where
  errBusyStart : s.errBusyStart = true → t.errBusyStart = true := by exact id
  errBadDesc : s.errBadDesc = true → t.errBadDesc = true := by exact id
  errIllCmd : s.errIllCmd = true → t.errIllCmd = true := by exact id
  bcPast : t.bcPast = s.bcPast := by rfl
  bcTrace : s.bcTrace <+: t.bcTrace := by exact List.prefix_rfl
  resTemp : t.resTemp = s.resTemp ∨ t.cplPulse = some 1#3 := by exact .inl rfl
  resThyst : t.resThyst = s.resThyst ∨ t.cplPulse = some 2#3 := by exact .inl rfl
  resTos : t.resTos = s.resTos ∨ t.cplPulse = some 3#3 := by exact .inl rfl

/-- What every instruction does, and every step but a reset. -/
structure Effect (s t : State) : Prop where
  live : LiveEffect s t
  lasting : Lasting s t

/-! ## Effects in a row -/

theorem sameLive.refl (s : State) : sameLive s s := ⟨rfl, rfl, rfl, rfl, rfl, rfl, rfl, rfl, rfl⟩

/-- An effect on the live registers begins from any state that holds the same ones. -/
theorem LiveEffect.of_sameLive {s u t : State} (hu : sameLive s u) (h : LiveEffect u t) : LiveEffect s t := by
  obtain ⟨h1, h2, h3, h4, h5, h6, h7, h8, h9⟩ := hu
  cases h with
  | kept h => exact .kept (by simpa only [sameLive, h1, h2, h3, h4, h5, h6, h7, h8, h9] using h)
  | started d hd h => exact .started d hd h
  | sentByte hp hw h =>
    exact .sentByte (h7 ▸ hp) (h3 ▸ hw)
      (by simpa only [sameLive, State.movedWrite, h1, h2, h3, h4, h5, h6, h7, h8, h9] using h)
  | turned hp hw hr h =>
    exact .turned (h7 ▸ hp) (h3 ▸ hw) (h5 ▸ hr)
      (by simpa only [sameLive, State.turnedToRead, h1, h2, h3, h4, h5, h6, h7, h8, h9] using h)
  | receivedByte hp hr h =>
    exact .receivedByte (h7 ▸ hp) (h5 ▸ hr)
      (by simpa only [sameLive, State.movedRead, h1, h2, h3, h4, h5, h6, h7, h8, h9] using h)
  | ended hp hc ht hdone => exact .ended hp hc ht (by simpa only [h3, h5, h7] using hdone)

/-- What lasts in two parts, the first of which writes no result. -/
theorem Lasting.trans {s u t : State} (h : Lasting s u) (hr : sameResults s u) (h' : Lasting u t) : Lasting s t where
  txbuf := h'.txbuf ∘ h.txbuf
  rxbuf := h'.rxbuf ∘ h.rxbuf
  errBusyStart := h'.errBusyStart ∘ h.errBusyStart
  errBadDesc := h'.errBadDesc ∘ h.errBadDesc
  errIllCmd := h'.errIllCmd ∘ h.errIllCmd
  bcPast := h'.bcPast.trans h.bcPast
  bcTrace := h.bcTrace.trans h'.bcTrace
  resTemp := hr.1 ▸ h'.resTemp
  resThyst := hr.2.1 ▸ h'.resThyst
  resTos := hr.2.2 ▸ h'.resTos

/-- An effect after a part that moves no live register and writes no result. -/
theorem Effect.after {s u t : State} (h : Effect u t) (hu : Lasting s u) (hl : sameLive s u) (hr : sameResults s u) :
    Effect s t :=
  ⟨h.live.of_sameLive hl, hu.trans hr h.lasting⟩

/-- What does not move the live registers. -/
theorem Lasting.effect {s t : State} (h : Lasting s t) (hl : sameLive s t) : Effect s t := ⟨.kept hl, h⟩

/-! ## Updates that move no live register -/

/-- A command at the controller's port moves nothing of the block. -/
theorem log_lasting (s : State) (e : BusEntry) : Lasting s (s.log e) := { bcTrace := List.prefix_append .. }

theorem flagBusyStart_lasting (s : State) : Lasting s s.flagBusyStart := { errBusyStart := fun _ => rfl }

theorem flagBadDesc_lasting (s : State) : Lasting s s.flagBadDesc := { errBadDesc := fun _ => rfl }

theorem flagIllCmd_lasting (s : State) : Lasting s s.flagIllCmd := { errIllCmd := fun _ => rfl }

theorem txbuf_lasting {s : State} {m : Memory} (hm : Memory.wf s.txbuf = true → Memory.wf m = true) :
    Lasting s { s with txbuf := m } := { txbuf := hm }

theorem rxbuf_lasting {s : State} {m : Memory} (hm : Memory.wf s.rxbuf = true → Memory.wf m = true) :
    Lasting s { s with rxbuf := m } := { rxbuf := hm }

theorem log_effect (s : State) (e : BusEntry) : Effect s (s.log e) := (log_lasting s e).effect (.refl s)

/-! ## Host accesses -/

/-- A write of a register changes staged registers only (R33). -/
theorem writeRegister_eq (s : State) (n : Nat) (v : HostWord) :
    ∃ a p c q r k, s.writeRegister n v =
      { s with sTaddr := a, sWptr := p, sWcnt := c, sRptr := q, sRcnt := r, sCpl := k } := by
  unfold State.writeRegister
  split <;> exact ⟨_, _, _, _, _, _, rfl⟩

/-- What a host access that is no command can do: write staged registers, reply, or write the byte it names. -/
theorem hostAccess_eq_next {op : HostOp} {s t : State} (h : hostAccess op s = .next t) :
    (∃ n v, op = .write n v ∧ t = s.writeRegister n v) ∨
    (∃ d, t = s.reply d) ∨
    (∃ a b, op = .writeTx a b ∧ t = { s with txbuf := Memory.write a.toNat b s.txbuf }) ∨
    (∃ a b, op = .writeRx a b ∧ t = { s with rxbuf := Memory.write a.toNat b s.rxbuf }) := by
  cases op with
  | write n v => injection h with h; exact .inl ⟨n, v, rfl, h.symm⟩
  | read n => injection h with h; exact .inr (.inl ⟨_, h.symm⟩)
  | waitIdle => injection h with h; exact .inr (.inl ⟨_, h.symm⟩)
  | writeTx a b =>
    simp only [hostAccess, hostWriteTx] at h
    split at h
    · cases h
    · injection h with h; exact .inr (.inr (.inl ⟨a, b, rfl, h.symm⟩))
  | writeRx a b =>
    simp only [hostAccess, hostWriteRx] at h
    split at h
    · cases h
    · injection h with h; exact .inr (.inr (.inr ⟨a, b, rfl, h.symm⟩))
  | readTx a =>
    simp only [hostAccess, hostReadTx] at h
    split at h
    · injection h with h; exact .inr (.inl ⟨_, h.symm⟩)
    · cases h
  | readRx a =>
    simp only [hostAccess, hostReadRx] at h
    split at h
    · cases h
    split at h
    · injection h with h; exact .inr (.inl ⟨_, h.symm⟩)
    · cases h

theorem hostAccess_effect {op : HostOp} {s t : State} (h : hostAccess op s = .next t) : Effect s t := by
  rcases hostAccess_eq_next h with ⟨n, v, -, rfl⟩ | ⟨d, rfl⟩ | ⟨a, b, -, rfl⟩ | ⟨a, b, -, rfl⟩
  · obtain ⟨a, p, c, q, r, k, hw⟩ := writeRegister_eq s n v
    rw [hw]
    exact Lasting.effect { } (.refl s)
  · exact Lasting.effect { } (.refl s)
  · exact (txbuf_lasting (Memory.wf_write · a.isLt)).effect (.refl s)
  · exact (rxbuf_lasting (Memory.wf_write · a.isLt)).effect (.refl s)

/-! ## Starts -/

theorem accept_effect (s : State) {d : Descriptor} (hd : badDesc d = false) : Effect s (s.accept d) := by
  rw [accept_eq]
  exact ⟨.started d hd (.refl (s.started d)), { bcTrace := List.prefix_append .. }⟩

theorem engineStart_effect (d : Descriptor) (s : State) : Effect s (engineStart d s).2 := by
  rcases engineStart_cases d s with ⟨-, h⟩ | ⟨-, -, h⟩ | ⟨-, hd, h⟩ <;> rw [h]
  · exact (flagBusyStart_lasting s).effect (.refl s)
  · exact (flagBadDesc_lasting s).effect (.refl s)
  · exact accept_effect s hd

theorem protoStart_effect {bytes : List Byte} {rcnt : Byte} {c : BitVec 4} (hl : bytes.length ≤ 3) (hr : rcnt.toNat ≤ 2)
    (hn : 0 < bytes.length ∨ 0 < rcnt.toNat) (hc : cplBad c = false) (s : State) : Effect s (protoStart bytes rcnt c s).2 := by
  rcases protoStart_cases hl hr hn hc s with ⟨-, h⟩ | ⟨-, h⟩ <;> rw [h]
  · exact (flagBusyStart_lasting s).effect (.refl s)
  · exact (accept_effect _ (badDesc_protoDescriptor hl hr hn hc)).after (txbuf_lasting Memory.wf_writeFrom) (.refl s)
      ⟨rfl, rfl, rfl⟩

/-- Entering the delay and an admitted start touch different registers. -/
theorem startDelay_accept (s : State) (d : Descriptor) (q : Sequencer) :
    (s.accept d).startDelay q = (s.startDelay q).accept d := by
  rw [accept_eq, accept_eq]; rfl

theorem pointerThenDelay_effect (ptr : Byte) (q : Sequencer) (s : State) : Effect s (pointerThenDelay ptr q s) := by
  rcases pointerThenDelay_cases ptr q s with ⟨-, h⟩ | ⟨-, h⟩ <;> rw [h]
  · exact (flagBusyStart_lasting s).effect (.refl s)
  · have hd : badDesc (protoDescriptor 1 0#8 0#4) = false :=
      badDesc_protoDescriptor (by decide) (by decide) (.inl (by decide)) (by decide)
    rw [startDelay_accept]
    exact (accept_effect _ hd).after
      { txbuf := (Memory.wf_write · (by decide)) } (.refl s) ⟨rfl, rfl, rfl⟩

theorem cplBad_delayCpl (q : Sequencer) : cplBad (delayCpl q) = false := by
  cases q <;> decide

theorem delayDone_effect {s t : State} (h : exec .delayDone s = .next t) : Effect s t := by
  simp only [exec, execDelayDone] at h
  split at h
  · cases h
  · injection h with h
    subst h
    exact (protoStart_effect (by decide) (by decide) (.inr (by decide)) (cplBad_delayCpl _) s.endDelay).after
      { } (.refl s) ⟨rfl, rfl, rfl⟩

/-! ## Completions -/

/-- `Complete()` and the live registers: it ends the transaction, or `CHAIN` has started the staged descriptor (R139, R141). -/
theorem complete_live {k : Option Continuation} {s t : State} (h : complete k s = .next t) :
    (t.phase = .idle ∧ t.cpl = 0#4 ∧ t.tail = false ∧ t.wrem = s.wrem ∧ t.rrem = s.rrem) ∨
    (k = some .chain ∧ badDesc s.staged = false ∧ sameLive (s.started s.staged) t) := by
  rcases complete_eq_next h with ⟨-, rfl⟩ | ⟨-, rfl⟩ | ⟨-, r, rfl⟩ | ⟨-, r, rfl⟩ | ⟨-, r, rfl⟩ | ⟨-, -, rfl⟩ | ⟨hk, hd, rfl⟩
  · exact .inl ⟨rfl, rfl, rfl, rfl, rfl⟩
  · exact .inl ⟨rfl, rfl, rfl, rfl, rfl⟩
  · exact .inl ⟨rfl, rfl, rfl, rfl, rfl⟩
  · exact .inl ⟨rfl, rfl, rfl, rfl, rfl⟩
  · exact .inl ⟨rfl, rfl, rfl, rfl, rfl⟩
  · exact .inl ⟨rfl, rfl, rfl, rfl, rfl⟩
  · rw [accept_eq]
    exact .inr ⟨hk, hd, .refl (s.started s.staged)⟩

/-- `Complete()` writes only the slot it pulses for (R201), and `RXBUF` never. -/
theorem complete_lasting {k : Option Continuation} {s t : State} (h : complete k s = .next t) :
    Lasting s t ∧ t.rxbuf = s.rxbuf := by
  rcases complete_eq_next h with ⟨-, rfl⟩ | ⟨-, rfl⟩ | ⟨-, r, rfl⟩ | ⟨-, r, rfl⟩ | ⟨-, r, rfl⟩ | ⟨-, -, rfl⟩ | ⟨-, -, rfl⟩
  · exact ⟨{ }, rfl⟩
  · exact ⟨{ }, rfl⟩
  · exact ⟨{ resTemp := .inr rfl }, rfl⟩
  · exact ⟨{ resThyst := .inr rfl }, rfl⟩
  · exact ⟨{ resTos := .inr rfl }, rfl⟩
  · exact ⟨{ errBadDesc := fun _ => rfl }, rfl⟩
  · rw [accept_eq]
    exact ⟨{ bcTrace := List.prefix_append .. }, rfl⟩

/-- A step that ends in `Complete()`, from the state `u` in which the last bytes are moved. -/
theorem complete_effect {k : Option Continuation} {s u t : State} (h : complete k u = .next t) (hu : Lasting s u)
    (hr : sameResults s u)
    (hdone : (s.phase = .reading → s.wrem = 0#8) → (s.phase = .complete → s.wrem = 0#8 ∧ s.rrem = 0#8) →
      u.wrem = 0#8 ∧ u.rrem = 0#8) : Effect s t := by
  refine ⟨?_, hu.trans hr (complete_lasting h).1⟩
  rcases complete_live h with ⟨hp, hc, ht, hw, hr⟩ | ⟨-, hd, hl⟩
  · exact .ended hp hc ht (by simpa only [hw, hr] using hdone)
  · exact .started _ hd hl

theorem completing_effect {k : Option Continuation} {s t : State} (h : completing k s = .next t) : Effect s t := by
  obtain ⟨hp, h⟩ := completing_eq_next h
  exact complete_effect h { } ⟨rfl, rfl, rfl⟩ fun _ hdone => hdone hp

/-! ## The handler step -/

theorem afterSample_lasting (s : State) (w : StatusWord) : Lasting s (s.afterSample w) := { bcTrace := List.prefix_append .. }

/-- What a handler step leaves of `RXBUF`: all of it, or all but the byte at `RPTR`, received in `Reading` while bytes remain. -/
theorem busEvent_rxbuf {s t : State} {w : StatusWord} (h : exec (.busEvent w) s = .next t) :
    t.rxbuf = s.rxbuf ∨
    (s.phase = .reading ∧ 0 < s.rrem.toNat ∧ ∃ b, t.rxbuf = Memory.write s.rptr.toNat b s.rxbuf) := by
  obtain ⟨-, ⟨rfl, -⟩ | ⟨-, -, h⟩ | ⟨-, -, -, -, rfl⟩ | ⟨-, -, -, -, h⟩ | ⟨-, -, h⟩ | ⟨hp, -, hr, h⟩ | ⟨hp, -, hr, h⟩⟩ :=
    execBusEvent_eq_next h
  · exact .inl rfl
  · obtain ⟨b, -, rfl⟩ := branchW1_eq_next h
    exact .inl rfl
  · exact .inl rfl
  · obtain ⟨k, -, h⟩ := completeLive_eq_next h
    exact .inl (complete_lasting h).2
  · rw [branchRD0_eq] at h
    injection h with h
    subst h
    exact .inl rfl
  · rw [branchRD1_eq] at h
    injection h with h
    subst h
    exact .inr ⟨hp, by omega, _, rfl⟩
  · rw [branchRD2_eq] at h
    obtain ⟨k, -, h⟩ := completeLive_eq_next h
    exact .inr ⟨hp, by simp [hr], _, (complete_lasting h).2⟩

theorem busEvent_effect {s t : State} {w : StatusWord} (h : exec (.busEvent w) s = .next t) : Effect s t := by
  obtain ⟨-, ⟨rfl, -⟩ | ⟨hp, hw, h⟩ | ⟨hp, hw, -, hr, rfl⟩ | ⟨hp, hw, -, hr, h⟩ | ⟨-, -, h⟩ | ⟨hp, -, hr, h⟩ | ⟨hp, -, hr, h⟩⟩ :=
    execBusEvent_eq_next h
  · exact (afterSample_lasting s w).effect (.refl s)
  · obtain ⟨b, -, rfl⟩ := branchW1_eq_next h
    exact ⟨.sentByte hp hw (.refl s.movedWrite), { bcTrace := by simp [State.afterSample] }⟩
  · exact ⟨.turned hp hw hr (.refl s.turnedToRead), { bcTrace := List.prefix_append .. }⟩
  · obtain ⟨k, -, h⟩ := completeLive_eq_next h
    exact complete_effect h { bcTrace := List.prefix_append .. } ⟨rfl, rfl, rfl⟩ fun _ _ => ⟨hw, hr⟩
  · rw [branchRD0_eq] at h
    injection h with h
    subst h
    exact Lasting.effect { bcTrace := by simp [State.afterSample] } (.refl s)
  · rw [branchRD1_eq] at h
    injection h with h
    subst h
    exact ⟨.receivedByte hp hr (.refl s.movedRead),
      { rxbuf := (Memory.wf_write · s.rptr.isLt), bcTrace := by simp [State.afterSample] }⟩
  · rw [branchRD2_eq] at h
    obtain ⟨k, -, h⟩ := completeLive_eq_next h
    exact complete_effect h { rxbuf := (Memory.wf_write · s.rptr.isLt), bcTrace := by simp [State.afterSample] } ⟨rfl, rfl, rfl⟩
      fun hdone _ => ⟨hdone hp, rfl⟩

/-! ## Every instruction, and every step -/

theorem foreground_effect {s t u : State} (hu : Effect s u) (h : foreground s u = .next t) : Effect s t :=
  (foreground_eq_next h).2 ▸ hu

/-- The write-only sensor operations: one to three bytes, nothing to read (R162 to R164, R167). -/
theorem sensorWrite_effect {bytes : List Byte} (hl : bytes.length ≤ 3) (hn : 0 < bytes.length) {s t : State}
    (h : foreground s (protoStart bytes 0#8 0b0000#4 s).2 = .next t) : Effect s t :=
  foreground_effect (protoStart_effect hl (by decide) (.inl hn) (by decide) s) h

theorem logged_effect {s t : State} {e : BusEntry} (h : Host.Outcome.next (φ := Fault) (ρ := Refusal) (s.log e) = .next t) :
    Effect s t := by
  injection h with h
  exact h ▸ log_effect s e

theorem exec_effect {i : Instr} {s t : State} (h : exec i s = .next t) : Effect s t := by
  cases i with
  | configure mode => exact foreground_effect (log_effect s _) h
  | start => exact foreground_effect (engineStart_effect _ s) h
  | powerUp => exact sensorWrite_effect (by simp) (by simp) h
  | powerDown => exact sensorWrite_effect (by simp) (by simp) h
  | startConv => exact sensorWrite_effect (by simp) (by simp) h
  | readMeas => exact foreground_effect (pointerThenDelay_effect ..) h
  | readLimit which => exact foreground_effect (pointerThenDelay_effect ..) h
  | writeLimit which v => exact sensorWrite_effect (by simp) (by simp) h
  | bcConfigure mode => exact logged_effect h
  | bcReset => exact logged_effect h
  | bcStartWrite a => exact logged_effect h
  | bcStartRead a => exact logged_effect h
  | bcAck => exact logged_effect h
  | bcMarkLast => exact logged_effect h
  | bcStatus => exact (logged_effect h).after { } (.refl s) ⟨rfl, rfl, rfl⟩
  | bcReadData => exact (logged_effect h).after { } (.refl s) ⟨rfl, rfl, rfl⟩
  | bcWriteData b => exact logged_effect h
  | busEvent w => exact busEvent_effect h
  | cplNotify => exact completing_effect h
  | cplDecodeTemp => exact completing_effect h
  | cplDecodeThyst => exact completing_effect h
  | cplDecodeTos => exact completing_effect h
  | cplChain => exact completing_effect h
  | cplNone id => exact completing_effect h
  | delayDone => exact delayDone_effect h

/-- Taking any input but a reset. -/
theorem deliver_effect {x : Stimulus} {s t : State} (hx : x ≠ .reset) (h : (deliver x s).outcome = .next t) : Effect s t := by
  rcases deliver_eq_next h with ⟨w, i, -, -, h⟩ | ⟨w, e, -, -, rfl⟩ | ⟨-, rfl⟩ | ⟨op, -, -, -, h⟩ | ⟨-, h⟩ | ⟨e, w, b, -, rfl⟩ |
    ⟨hr, -⟩ | ⟨w, i, -, -, h⟩
  · exact exec_effect h
  · exact (flagIllCmd_lasting s).effect (.refl s)
  · exact Lasting.effect { } (.refl s)
  · exact hostAccess_effect h
  · exact exec_effect h
  · exact Lasting.effect { } (.refl s)
  · exact absurd hr hx
  · exact exec_effect h

/-- A step takes the reset input only where that comes first; every other step has its effect from the state it began in. -/
theorem step_effect_or_reset {s t : State} (h : step s = .next t) :
    Effect s t ∨ (comesFirst s .reset ∧ ∃ rest, t = { s.clearOutputs with stim := rest }.hardReset) := by
  rcases step_eq_next h with rfl | ⟨-, i, -, h⟩ | ⟨-, -, h⟩ | ⟨x, rest, hx, -, h⟩
  · exact .inl (Lasting.effect { } (.refl s))
  · exact .inl ((exec_effect h).after { } (.refl s) ⟨rfl, rfl, rfl⟩)
  · exact .inl ((exec_effect h).after { } (.refl s) ⟨rfl, rfl, rfl⟩)
  · by_cases hr : x = .reset
    · subst hr
      obtain ⟨-, pre, post, hs, -, hpre⟩ := takeFirst_eq_some hx
      injection h with h
      exact .inr ⟨⟨pre, post, hs, fun y hy => (inputWaits_iff s y).2 (hpre y hy)⟩, rest, h.symm⟩
    · exact .inl ((deliver_effect hr h).after { } (.refl s) ⟨rfl, rfl, rfl⟩)

/-- Every step that does not take a reset. -/
theorem step_effect {s t : State} (hn : ¬ comesFirst s .reset) (h : step s = .next t) : Effect s t :=
  (step_effect_or_reset h).resolve_right fun hr => hn hr.1

/-- Every step, the one that takes a reset too. -/
theorem step_live {s t : State} (h : step s = .next t) : LiveEffect s t ∧ BuffersKept s t := by
  rcases step_effect_or_reset h with h | ⟨-, rest, rfl⟩
  · exact ⟨h.live, h.lasting.toBuffersKept⟩
  · exact ⟨.ended rfl rfl rfl fun _ _ => ⟨rfl, rfl⟩, fun _ => rfl, fun _ => rfl⟩

end Sys2Proof.Machine

/-!
PROOFS of the family 10_state: the two invariants, kept by every move of the live registers and so by every step.
-/

namespace Sys2Proof.Machine

/-! ## The engine invariant -/

/-- The invariant speaks of the live registers and the form of the buffers only. -/
theorem State.Inv.of_sameLive {s t : State} (hs : s.Inv) (h : sameLive s t) (hb : BuffersKept s t) : t.Inv := by
  obtain ⟨-, h2, h3, h4, h5, h6, h7, h8, -⟩ := h
  exact {
    idle := by rw [h3, h5, h6, h7, h8]; exact hs.idle
    writing := by rw [h7, h8]; exact hs.writing
    reading := by rw [h3, h5, h7]; exact hs.reading
    completing := by rw [h3, h5, h7]; exact hs.completing
    bounds := by rw [h2, h3, h4, h5, h7]; exact hs.bounds
    continuation := by rw [h6]; exact hs.continuation
    txbuf := hb.txbuf hs.txbuf
    rxbuf := hb.rxbuf hs.rxbuf }

/-- The phase after a start: `Writing` if there is a byte to send, else `Reading`. -/
theorem started_phase_cases (s : State) (d : Descriptor) :
    (0 < d.wcnt.toNat ∧ (s.started d).phase = .writing) ∨ (d.wcnt = 0#8 ∧ (s.started d).phase = .reading) := by
  by_cases h : 0 < d.wcnt.toNat
  · exact .inl ⟨h, if_pos h⟩
  · exact .inr ⟨BitVec.eq_of_toNat_eq (by simp; omega), if_neg h⟩

theorem State.Inv.started {s : State} (hs : s.Inv) {d : Descriptor} (hd : badDesc d = false) : (s.started d).Inv := by
  obtain ⟨hne, hw, hr, hc⟩ := (badDesc_eq_false_iff d).1 hd
  have hb : d.wptr.toNat + d.wcnt.toNat ≤ 256 ∧ d.rptr.toNat + d.rcnt.toNat ≤ 256 := by omega
  have hrd : d.wcnt = 0#8 → 1 ≤ d.rcnt.toNat := fun h0 => by
    have : d.rcnt ≠ 0#8 := fun h => hne ⟨h0, h⟩
    simpa [Nat.one_le_iff_ne_zero, ← BitVec.toNat_inj] using this
  rcases started_phase_cases s d with ⟨-, hp⟩ | ⟨h0, hp⟩
  · exact ⟨by simp [hp], fun _ => rfl, by simp [hp], by simp [hp], fun _ => hb, hc, hs.txbuf, hs.rxbuf⟩
  · exact ⟨by simp [hp], fun _ => rfl, fun _ => ⟨h0, hrd h0⟩, by simp [hp], fun _ => hb, hc, hs.txbuf, hs.rxbuf⟩

theorem State.Inv.movedWrite {s : State} (hs : s.Inv) (hp : s.phase = .writing) (hw : 0 < s.wrem.toNat) : s.movedWrite.Inv := by
  have hp' : s.movedWrite.phase = .writing := hp
  obtain ⟨h1, h2⟩ := hs.bounds (by rw [hp]; rfl)
  have hb : (s.wptr + 1#8).toNat + (s.wrem - 1#8).toNat ≤ 256 := by
    have := s.wptr.isLt
    have := s.wrem.isLt
    simp only [BitVec.toNat_add, BitVec.toNat_sub, BitVec.toNat_ofNat]
    omega
  exact ⟨by simp [hp'], fun _ => hs.writing hp, by simp [hp'], by simp [hp'], fun _ => ⟨hb, h2⟩, hs.continuation, hs.txbuf,
    hs.rxbuf⟩

theorem State.Inv.movedRead {s : State} (hs : s.Inv) (hp : s.phase = .reading) (hr : 1 < s.rrem.toNat) : s.movedRead.Inv := by
  have hp' : s.movedRead.phase = .reading := hp
  obtain ⟨h1, h2⟩ := hs.bounds (by rw [hp]; rfl)
  have := s.rptr.isLt
  have := s.rrem.isLt
  have hb : (s.rptr + 1#8).toNat + (s.rrem - 1#8).toNat ≤ 256 := by
    simp only [BitVec.toNat_add, BitVec.toNat_sub, BitVec.toNat_ofNat]
    omega
  have hr' : 1 ≤ (s.rrem - 1#8).toNat := by
    simp only [BitVec.toNat_sub, BitVec.toNat_ofNat]
    omega
  exact ⟨by simp [hp'], by simp [hp'], fun _ => ⟨(hs.reading hp).1, hr'⟩, by simp [hp'], fun _ => ⟨h1, hb⟩, hs.continuation,
    hs.txbuf, hs.rxbuf⟩

theorem State.Inv.turnedToRead {s : State} (hs : s.Inv) (hp : s.phase = .writing) (hw : s.wrem = 0#8)
    (hr : 0 < s.rrem.toNat) : s.turnedToRead.Inv :=
  ⟨nofun, nofun, fun _ => ⟨hw, hr⟩, nofun, fun _ => hs.bounds (by rw [hp]; rfl), hs.continuation, hs.txbuf, hs.rxbuf⟩

/-- A finished transaction leaves `Idle` with nothing to move and no continuation. -/
theorem State.Inv.of_ended {t : State} (hp : t.phase = .idle) (hc : t.cpl = 0#4) (ht : t.tail = false)
    (hm : t.wrem = 0#8 ∧ t.rrem = 0#8) (htx : Memory.wf t.txbuf = true) (hrx : Memory.wf t.rxbuf = true) : t.Inv :=
  ⟨fun _ => ⟨hm.1, hm.2, by rw [hc]; rfl, ht⟩, by simp [hp], by simp [hp], by simp [hp], by simp [hp, Phase.live],
    by rw [hc]; rfl, htx, hrx⟩

/-- Every move of the live registers keeps the engine invariant. -/
theorem LiveEffect.inv {s t : State} (h : LiveEffect s t) (hb : BuffersKept s t) (hs : s.Inv) : t.Inv := by
  cases h with
  | kept h => exact hs.of_sameLive h hb
  | started d hd h => exact (hs.started hd).of_sameLive h ⟨hb.txbuf, hb.rxbuf⟩
  | sentByte hp hw h => exact (hs.movedWrite hp hw).of_sameLive h ⟨hb.txbuf, hb.rxbuf⟩
  | turned hp hw hr h => exact (hs.turnedToRead hp hw hr).of_sameLive h ⟨hb.txbuf, hb.rxbuf⟩
  | receivedByte hp hr h => exact (hs.movedRead hp hr).of_sameLive h ⟨hb.txbuf, hb.rxbuf⟩
  | ended hp hc ht hdone =>
    exact .of_ended hp hc ht (hdone (fun h => (hs.reading h).1) hs.completing) (hb.txbuf hs.txbuf) (hb.rxbuf hs.rxbuf)

/-! ## The ownership window -/

/-- The window invariant speaks of the live registers only. -/
theorem State.WindowInv.of_sameLive {s t : State} (hs : s.WindowInv) (h : sameLive s t) : t.WindowInv := by
  obtain ⟨h1, h2, h3, h4, h5, -, h7, -, h9⟩ := h
  exact {
    admitted := by rw [h7, h9]; exact hs.admitted
    target := by rw [h1, h7, h9]; exact hs.target
    sending := by rw [h2, h3, h7, h9]; exact hs.sending
    receiving := by rw [h4, h5, h7, h9]; exact hs.receiving }

/-- Where no transaction is live the window invariant says nothing. -/
theorem State.WindowInv.of_not_live {s : State} (h : s.phase.live = false) : s.WindowInv := by
  constructor <;> simp [h]

theorem started_window (s : State) {d : Descriptor} (hd : badDesc d = false) : (s.started d).WindowInv :=
  ⟨fun _ => hd, fun _ => rfl, fun _ => ⟨le_rfl, rfl⟩, fun _ => ⟨le_rfl, rfl⟩⟩

/-- One byte moved: the position goes up by one, the count down by one, and their sum stays. -/
theorem moved_window {p c q n : Byte} (hc : 0 < c.toNat) (h : c.toNat ≤ n.toNat ∧ p + c = q + n) :
    (c - 1#8).toNat ≤ n.toNat ∧ p + 1#8 + (c - 1#8) = q + n := by
  obtain ⟨hle, hsum⟩ := h
  have hlt := c.isLt
  refine ⟨?_, ?_⟩
  · simp only [BitVec.toNat_sub, BitVec.toNat_ofNat]
    omega
  · rw [← hsum, BitVec.add_assoc, BitVec.add_comm 1#8, BitVec.sub_add_cancel]

theorem State.WindowInv.movedWrite {s : State} (hs : s.WindowInv) (hw : 0 < s.wrem.toNat) : s.movedWrite.WindowInv :=
  ⟨hs.admitted, hs.target, fun hl => moved_window hw (hs.sending hl), hs.receiving⟩

theorem State.WindowInv.movedRead {s : State} (hs : s.WindowInv) (hr : 0 < s.rrem.toNat) : s.movedRead.WindowInv :=
  ⟨hs.admitted, hs.target, hs.sending, fun hl => moved_window hr (hs.receiving hl)⟩

theorem State.WindowInv.turnedToRead {s : State} (hs : s.WindowInv) (hl : s.phase.live = true) : s.turnedToRead.WindowInv :=
  ⟨fun _ => hs.admitted hl, fun _ => hs.target hl, fun _ => hs.sending hl, fun _ => hs.receiving hl⟩

/-- Every move of the live registers keeps the window invariant. -/
theorem LiveEffect.window {s t : State} (h : LiveEffect s t) (hs : s.WindowInv) : t.WindowInv := by
  cases h with
  | kept h => exact hs.of_sameLive h
  | started d hd h => exact (started_window s hd).of_sameLive h
  | sentByte hp hw h => exact (hs.movedWrite hw).of_sameLive h
  | turned hp hw hr h => exact (hs.turnedToRead (by rw [hp]; rfl)).of_sameLive h
  | receivedByte hp hr h => exact (hs.movedRead (by omega)).of_sameLive h
  | ended hp hc ht hdone => exact .of_not_live (by rw [hp]; rfl)

/-- The next index of a range lies in it while a byte of the range is left. -/
theorem inRange_of_window {p c q n : Byte} (hc : 0 < c.toNat) (h : c.toNat ≤ n.toNat ∧ p + c = q + n)
    (hp : p.toNat + c.toNat ≤ 256) (hq : q.toNat + n.toNat ≤ 256) : inRange q n p = true := by
  obtain ⟨hle, hsum⟩ := h
  have hmod : (p.toNat + c.toNat) % 256 = (q.toNat + n.toNat) % 256 := by simpa using congrArg BitVec.toNat hsum
  have heq : p.toNat + c.toNat = q.toNat + n.toNat := by omega
  simp only [inRange, Bool.and_eq_true, decide_eq_true_eq]
  omega

/-- The engine owns the byte it sends next (R68). -/
theorem ownsTx_wptr {s : State} (hs : s.Inv) (hw : s.WindowInv) (hl : s.phase.live = true) (hc : 0 < s.wrem.toNat) :
    s.ownsTx s.wptr = true := by
  obtain ⟨-, hown, -, -⟩ := (badDesc_eq_false_iff s.own).1 (hw.admitted hl)
  have hin := inRange_of_window hc (hw.sending hl) (hs.bounds hl).1 (hown (hc.trans_le (hw.sending hl).1))
  rw [State.ownsTx, hl, hin]
  rfl

/-- The engine owns the byte it stores next (R68). -/
theorem ownsRx_rptr {s : State} (hs : s.Inv) (hw : s.WindowInv) (hl : s.phase.live = true) (hc : 0 < s.rrem.toNat) :
    s.ownsRx s.rptr = true := by
  obtain ⟨-, -, hown, -⟩ := (badDesc_eq_false_iff s.own).1 (hw.admitted hl)
  have hin := inRange_of_window hc (hw.receiving hl) (hs.bounds hl).2 (hown (hc.trans_le (hw.receiving hl).1))
  rw [State.ownsRx, hl, hin]
  rfl

/-- A move that leaves `Reading` live was made in `Reading`, or has nothing left to send (R146). -/
theorem LiveEffect.enters_reading {s t : State} (h : LiveEffect s t) (ht : t.phase = .reading) :
    s.phase = .reading ∨ t.wrem = 0#8 := by
  cases h with
  | kept h =>
    obtain ⟨-, -, -, -, -, -, h7, -, -⟩ := h
    exact .inl (h7 ▸ ht)
  | started d hd h =>
    obtain ⟨-, -, h3, -, -, -, h7, -, -⟩ := h
    rcases started_phase_cases s d with ⟨-, hp⟩ | ⟨h0, -⟩
    · rw [h7, hp] at ht
      cases ht
    · exact .inr (h3.trans h0)
  | sentByte hp hw h =>
    obtain ⟨-, -, -, -, -, -, h7, -, -⟩ := h
    exact .inl (h7.symm.trans ht)
  | turned hp hw hr h =>
    obtain ⟨-, -, h3, -, -, -, -, -, -⟩ := h
    exact .inr (h3.trans hw)
  | receivedByte hp hr h => exact .inl hp
  | ended hp hc ht' hdone =>
    rw [hp] at ht
    cases ht

/-! ## The statements about the invariants -/

/-- Settles O46: every step moves the live registers in one of the ways of `LiveEffect`, and each of them keeps the invariant. -/
theorem stepKeepsEngineInvariant : Obligations.StepKeepsEngineInvariant := by
  intro s t hs h
  obtain ⟨hl, hb⟩ := step_live h
  exact hl.inv hb hs

/-- Settles O48: every step moves the live registers in one of the ways of `LiveEffect`, and each of them keeps the window. -/
theorem stepKeepsOwnershipWindow : Obligations.StepKeepsOwnershipWindow := by
  intro s t hs h
  exact (step_live h).1.window hs

/-- Settles O47: after reset nothing is live and nothing is left to move. -/
theorem resetMeetsInvariants : Obligations.ResetMeetsInvariants :=
  ⟨.of_ended rfl rfl rfl ⟨rfl, rfl⟩ rfl rfl, .of_not_live rfl⟩

/-- Settles O49: a byte sent or stored is at the pointer, which lies in the window while its count is not zero. -/
theorem engineStaysInItsWindow : Obligations.EngineStaysInItsWindow := by
  intro s t w hs hw h
  refine ⟨fun hp hc => ownsTx_wptr hs hw (by rw [hp]; rfl) hc, fun a ha => ?_⟩
  rcases busEvent_rxbuf h with hrx | ⟨hp, hc, b, hrx⟩
  · exact absurd (by rw [hrx]) ha
  · rw [hrx, Memory.read_write] at ha
    have hat : a = s.rptr := by
      by_contra hne
      exact ha (if_neg fun h => hne (BitVec.eq_of_toNat_eq h))
    exact hat ▸ ownsRx_rptr hs hw (by rw [hp]; rfl) hc

/-- Settles O51: only the read branches write `RXBUF`, and `Reading` is entered with nothing left to send. -/
theorem writesDrainBeforeReads : Obligations.WritesDrainBeforeReads := by
  refine ⟨fun s t w h hne => ?_, fun s t h ht => (step_live h).1.enters_reading ht⟩
  rcases busEvent_rxbuf h with hrx | ⟨hp, -⟩
  · exact absurd hrx hne
  · exact ⟨hp, fun hs => (hs.reading hp).1⟩

/-! ## The statements about what lasts -/

/-- Settles O52: a step that takes no reset has the lasting effect, whose flags are sticky. -/
theorem errorFlagsAreSticky : Obligations.ErrorFlagsAreSticky := by
  intro s t hn h
  have hl := (step_effect hn h).lasting
  exact ⟨hl.errBusyStart, hl.errBadDesc, hl.errIllCmd⟩

/-- Settles O53: a step that takes no reset has the lasting effect, which extends the trace. -/
theorem traceOnlyGrows : Obligations.TraceOnlyGrows := by
  intro s t hn h
  have hl := (step_effect hn h).lasting
  obtain ⟨es, hes⟩ := hl.bcTrace
  exact ⟨hl.bcPast, es, hes.symm⟩

/-- Settles O54: a step that takes no reset has the lasting effect, which writes a slot only with its pulse. -/
theorem resultsChangeOnlyWithTheirPulse : Obligations.ResultsChangeOnlyWithTheirPulse := by
  intro s t hn h
  have hl := (step_effect hn h).lasting
  exact ⟨hl.resTemp.resolve_left, hl.resThyst.resolve_left, hl.resTos.resolve_left⟩

/-! ## Counts -/

/-- A count that is not zero goes down by one. -/
theorem toNat_sub_one_add_one {c : Byte} (h : 0 < c.toNat) : (c - 1#8).toNat + 1 = c.toNat := by
  have := c.isLt
  simp only [BitVec.toNat_sub, BitVec.toNat_ofNat]
  omega

/-- The counts after a completion are those before it, but where `CHAIN` has started the staged descriptor. -/
theorem completeLive_counts {s t : State} (h : completeLive s = .next t) :
    (t.wrem = s.wrem ∧ t.rrem = s.rrem) ∨
    (cplSet s.cpl = true ∧ cplId s.cpl = 4#3 ∧ t.own = s.staged ∧ t.wrem = s.sWcnt ∧ t.rrem = s.sRcnt) := by
  obtain ⟨k, hk, h⟩ := completeLive_eq_next h
  rcases complete_live h with ⟨-, -, -, hw, hr⟩ | ⟨rfl, -, hl⟩
  · exact .inl ⟨hw, hr⟩
  · obtain ⟨hset, hid⟩ := continuationOf_some hk
    obtain ⟨-, -, h3, -, h5, -, -, -, h9⟩ := hl
    exact .inr ⟨hset, hid, h9, h3, h5⟩

/-- Settles O50, by the branches of the handler step: W1 counts `WREM`, RD1 and RD2 count `RREM`, no other branch counts. -/
theorem countersNeverGoNegative : Obligations.CountersNeverGoNegative := by
  intro s t w h
  obtain ⟨-, ⟨rfl, -⟩ | ⟨-, hw, h⟩ | ⟨-, -, -, -, rfl⟩ | ⟨-, -, -, -, h⟩ | ⟨-, -, h⟩ | ⟨-, -, hr, h⟩ | ⟨-, -, hr, h⟩⟩ :=
    execBusEvent_eq_next h
  · exact .inl ⟨.inl rfl, .inl rfl⟩
  · obtain ⟨b, -, rfl⟩ := branchW1_eq_next h
    exact .inl ⟨.inr ⟨hw, toNat_sub_one_add_one hw⟩, .inl rfl⟩
  · exact .inl ⟨.inl rfl, .inl rfl⟩
  · exact (completeLive_counts h).imp (fun hc => ⟨.inl hc.1, .inl hc.2⟩) id
  · rw [branchRD0_eq] at h
    injection h with h
    subst h
    exact .inl ⟨.inl rfl, .inl rfl⟩
  · rw [branchRD1_eq] at h
    injection h with h
    subst h
    have hr : 0 < s.rrem.toNat := by omega
    exact .inl ⟨.inl rfl, .inr ⟨hr, toNat_sub_one_add_one hr⟩⟩
  · rw [branchRD2_eq] at h
    refine (completeLive_counts h).imp (fun hc => ⟨.inl hc.1, .inr ?_⟩) id
    rw [hc.2, hr]
    exact ⟨by decide, rfl⟩

end Sys2Proof.Machine

/-!
PROOFS of the family 10_state: what a step runs, and what the host port does.
-/

namespace Sys2Proof.Machine

/-! ## What a step runs -/

/-- An input the step takes although it is no early event and no reset: no handler step may be due. -/
theorem step_of_input {s : State} {pre : List Stimulus} {x : Stimulus} {rest : List Stimulus} (hd : s.handlerDue = false)
    (hs : s.stim = pre ++ x :: rest) (hpre : ∀ y ∈ pre, inputWaits s y) (ht : s.takes x = true) :
    step s = (deliver x { s with cplPulse := none, hostOut := none, stim := pre ++ rest }).outcome :=
  step_of_first hs hpre ht (.inr hd)

theorem takes_host {s : State} (hq : s.seq = .ready) (op : HostOp) : s.takes (.host op) = true := by
  simp [State.takes, hq]

/-- A host access that is no command and no `wait_idle` is delivered as itself (R33). -/
theorem deliver_hostAccess {op : HostOp} (hw : op ≠ .waitIdle) (hc : ∀ w, op ≠ .write 0 w) (s : State) :
    (deliver (.host op) s).outcome = hostAccess op s := by
  cases op with
  | write n v =>
    have hn : n ≠ 0 := fun h => hc v (h ▸ rfl)
    simp only [deliver, deliverHost, if_neg hn, Fetched.outcome]
  | waitIdle => exact absurd rfl hw
  | read n => rfl
  | writeTx a b => rfl
  | readTx a => rfl
  | writeRx a b => rfl
  | readRx a => rfl

theorem deliver_command {w : HostWord} {i : Instr} (h : decode (.host w) = .ok i) (s : State) :
    (deliver (.host (.write 0 w)) s).outcome = exec i s := by
  simp only [deliver, deliverHost, if_true, command, h, Fetched.outcome]

theorem deliver_illegal {w : HostWord} {e : DecodeError} (h : decode (.host w) = .error e) (s : State) :
    (deliver (.host (.write 0 w)) s).outcome = .next s.flagIllCmd := by
  simp only [deliver, deliverHost, if_true, command, h, Fetched.outcome]

theorem deliver_busCommand {w : BusWord} {i : Instr} (h : decode (.bus w) = .ok i) (s : State) :
    (deliver (.busCommand w) s).outcome = exec i s := by
  simp only [deliver, busPort, h, Fetched.outcome]

/-- With an event pending and no completion in progress the handler runs what the status answer decodes to (R199). -/
theorem serve_event {s : State} {i : Instr} (hp : s.phase ≠ .complete) (h : decode (.event s.statusAnswer) = .ok i) :
    (serve s).outcome = exec i s.tookStatus := by
  simp only [serve, if_neg hp, h, Fetched.outcome]

/-- A completion in progress runs what the live `CPL` decodes to (R139). -/
theorem serve_completion {s : State} {i : Instr} (hp : s.phase = .complete) (h : decode (.completion s.cpl) = .ok i) :
    (serve s).outcome = exec i s := by
  simp only [serve, if_pos hp, h, Fetched.outcome]

/-- Settles O5, one clause per port. -/
theorem stepRunsDecodedInstruction : Obligations.StepRunsDecodedInstruction := by
  refine ⟨?_, ?_, ?_, ?_, ?_, ?_⟩
  · intro s w pre rest i hq hd hs hpre hi
    rw [step_of_input hd hs hpre (takes_host hq _), deliver_command hi]
  · intro s op pre rest hq hd hs hpre hw hc
    rw [step_of_input hd hs hpre (takes_host hq _), deliver_hostAccess hw hc]
  · intro s pre rest hq hd hs hpre
    exact step_of_input hd hs hpre (by simp [State.takes, hq])
  · intro s w pre rest i hd hs hpre hi
    rw [step_of_input hd hs hpre rfl, deliver_busCommand hi]
  · intro s i he hp hfirst hi
    rw [step_of_handler (by simp [State.handlerDue, he]) hfirst]
    exact serve_event hp hi
  · intro s i hp hfirst hi
    rw [step_of_handler (by simp [State.handlerDue, hp]) hfirst]
    exact serve_completion hp hi

/-! ## Illegal commands -/

theorem plainHost_eq_ok {w : HostWord} {i j : Instr} (h : plainHost w i = .ok j) :
    hostWhich w = 0#1 ∧ hostImm w = 0#16 ∧ j = i := by
  unfold plainHost at h
  split at h
  · cases h
  rename_i hw
  split at h
  · cases h
  rename_i hi
  injection h with h
  exact ⟨not_not.1 hw, not_not.1 hi, h.symm⟩

/-- The limit selector is read back from its bit (R81). -/
@[simp] theorem bit_ofBit (b : BitVec 1) : (Limit.ofBit b).bit = b := by
  revert b; decide

/-- A 16-bit immediate whose upper byte is 0 is its lower byte, padded (R81). -/
theorem zero_append_low_byte {x : Half} (h : x.extractLsb' 8 8 = 0#8) : 0#8 ++ x.extractLsb' 0 8 = x := by
  calc 0#8 ++ x.extractLsb' 0 8 = x.extractLsb' 8 8 ++ x.extractLsb' 0 8 := by rw [h]
    _ = x := by rw [BitVec.extractLsb'_append_extractLsb'_eq_extractLsb' (by rfl)]; simp

/-- An operation without `which` and `imm` has the word of its `op` alone (R81). -/
theorem encode_of_plainHost {w : HostWord} {op : Byte} {i j : Instr} (hz : hostZ w = 0#7) (hop : hostOpcode w = op)
    (henc : encode i = .host (hostWord op 0#1 0#16)) (h : plainHost w i = .ok j) : encode j = .host w := by
  obtain ⟨hwh, him, rfl⟩ := plainHost_eq_ok h
  rw [henc, ← hop, ← hwh, ← him, hostWord_of_fields hz]

/-- A word that decodes is the encoding of what it decodes to (R80, R92). -/
theorem encode_of_decodeHost {w : HostWord} {i : Instr} (h : decodeHost w = .ok i) : encode i = .host w := by
  unfold decodeHost at h
  by_cases hz : hostZ w = 0#7
  case neg => rw [if_pos hz] at h; cases h
  rw [if_neg (not_not.2 hz)] at h
  by_cases hop : hostOpcode w = 0x01#8
  · rw [if_pos hop] at h
    split at h
    · cases h
    rename_i hwh
    split at h
    · cases h
    rename_i him
    injection h with h
    subst h
    rw [encode, zero_append_low_byte (not_not.1 him), ← hop, ← not_not.1 hwh, hostWord_of_fields hz]
  rw [if_neg hop] at h
  by_cases hop : hostOpcode w = 0x02#8
  · exact encode_of_plainHost hz hop rfl (by rwa [if_pos hop] at h)
  rw [if_neg hop] at h
  by_cases hop : hostOpcode w = 0x10#8
  · exact encode_of_plainHost hz hop rfl (by rwa [if_pos hop] at h)
  rw [if_neg hop] at h
  by_cases hop : hostOpcode w = 0x11#8
  · exact encode_of_plainHost hz hop rfl (by rwa [if_pos hop] at h)
  rw [if_neg hop] at h
  by_cases hop : hostOpcode w = 0x12#8
  · exact encode_of_plainHost hz hop rfl (by rwa [if_pos hop] at h)
  rw [if_neg hop] at h
  by_cases hop : hostOpcode w = 0x13#8
  · exact encode_of_plainHost hz hop rfl (by rwa [if_pos hop] at h)
  rw [if_neg hop] at h
  by_cases hop : hostOpcode w = 0x14#8
  · rw [if_pos hop] at h
    split at h
    · cases h
    rename_i him
    injection h with h
    subst h
    rw [encode, bit_ofBit, ← hop, ← not_not.1 him, hostWord_of_fields hz]
  rw [if_neg hop] at h
  by_cases hop : hostOpcode w = 0x15#8
  · rw [if_pos hop] at h
    injection h with h
    subst h
    rw [encode, bit_ofBit, BitVec.ofInt_toInt, ← hop, hostWord_of_fields hz]
  rw [if_neg hop] at h
  cases h

/-- The encoding of a host command selects its row of the table (R82). -/
theorem hostRow_of_encode {i : Instr} {w : HostWord} (h : encode i = .host w) : ∃ r ∈ hostRows, w &&& r.2 = r.1 := by
  have row : ∀ {k m : HostWord}, (∃ v, encode i = .host v ∧ v &&& m = k) → (k, m) ∈ hostRows →
      ∃ r ∈ hostRows, w &&& r.2 = r.1 := by
    rintro k m ⟨v, hv, hr⟩ hmem
    obtain rfl : v = w := PortWord.host.inj (hv.symm.trans h)
    exact ⟨_, hmem, hr⟩
  cases i with
  | configure mode => exact row (Laws.TableRow.configure mode) (by decide)
  | start => exact row Laws.TableRow.start (by decide)
  | powerUp => exact row Laws.TableRow.powerUp (by decide)
  | powerDown => exact row Laws.TableRow.powerDown (by decide)
  | startConv => exact row Laws.TableRow.startConv (by decide)
  | readMeas => exact row Laws.TableRow.readMeas (by decide)
  | readLimit which => exact row (Laws.TableRow.readLimit which) (by decide)
  | writeLimit which v => exact row (Laws.TableRow.writeLimit which v) (by decide)
  | _ => cases h

/-- A word that selects no row of the table is illegal (R91). -/
theorem decodeHost_of_no_row {w : HostWord} (hw : ∀ r ∈ hostRows, w &&& r.2 ≠ r.1) : ∃ e, decode (.host w) = .error e := by
  cases h : decode (.host w) with
  | error e => exact ⟨e, rfl⟩
  | ok i =>
    obtain ⟨r, hr, hwr⟩ := hostRow_of_encode (encode_of_decodeHost h)
    exact absurd hwr (hw r hr)

/-- Settles O6: the word does not decode, and delivering it sets the flag. -/
theorem illegalCommandOnlyFlags : Obligations.IllegalCommandOnlyFlags := by
  intro s w pre rest hq hd hs hpre hw
  obtain ⟨e, he⟩ := decodeHost_of_no_row hw
  rw [step_of_input hd hs hpre (takes_host hq _), deliver_illegal he]
  rfl

/-! ## Reset -/

/-- Settles O10: reset comes before a handler step that is due, and `hardReset` gives every value. -/
theorem resetInputGivesResetState : Obligations.ResetInputGivesResetState := by
  intro s pre rest hs hpre
  have hstep : step s = .next { s.clearOutputs with stim := pre ++ rest }.hardReset := step_of_first hs hpre rfl (.inl rfl)
  exact ⟨_, hstep, State.hardReset_bcTold _, rfl, rfl, rfl, rfl, rfl, rfl, rfl, rfl, rfl, rfl, rfl, rfl, rfl⟩

/-! ## `STAT` -/

/-- A bit of `STAT` (R34). -/
theorem stat_getLsbD (s : State) {i : Nat} (hi : i < 32) :
    s.stat.getLsbD i =
      if i < 2 then s.phase.code.getLsbD i
      else if i = 2 then s.tail
      else if i = 3 then cplSet s.cpl
      else if i < 6 then s.seq.code.getLsbD (i - 4)
      else if i = 6 then s.evPend
      else if i = 8 then s.errBusyStart
      else if i = 9 then s.errBadDesc
      else if i = 10 then s.errIllCmd
      else false := by
  have h : s.stat.getLsbD i = (0#21 ++ BitVec.ofBool s.errIllCmd ++ BitVec.ofBool s.errBadDesc ++ BitVec.ofBool s.errBusyStart
    ++ 0#1 ++ BitVec.ofBool s.evPend ++ s.seq.code ++ BitVec.ofBool (cplSet s.cpl) ++ BitVec.ofBool s.tail
    ++ s.phase.code).getLsbD i := rfl
  rw [h]
  simp only [BitVec.getLsbD_append, BitVec.getLsbD_ofBool]
  interval_cases i <;> rfl

theorem stat_phase (s : State) : s.stat.extractLsb' 0 2 = s.phase.code := by
  apply BitVec.eq_of_getLsbD_eq
  intro i hi
  rw [BitVec.getLsbD_extractLsb', stat_getLsbD s (by omega)]
  simp [hi]

theorem stat_seq (s : State) : s.stat.extractLsb' 4 2 = s.seq.code := by
  apply BitVec.eq_of_getLsbD_eq
  intro i hi
  rw [BitVec.getLsbD_extractLsb', stat_getLsbD s (by omega)]
  interval_cases i <;> simp

theorem stat_reserved (s : State) : s.stat.extractLsb' 11 21 = 0#21 := by
  apply BitVec.eq_of_getLsbD_eq
  intro i hi
  rw [BitVec.getLsbD_extractLsb', stat_getLsbD s (by omega)]
  rw [if_neg (by omega), if_neg (by omega), if_neg (by omega), if_neg (by omega), if_neg (by omega), if_neg (by omega),
    if_neg (by omega), if_neg (by omega)]
  simp

/-- `PHASE` reads 1 or 2 exactly while a transaction is live (R34). -/
theorem live_iff_code (p : Phase) : p.live = true ↔ p.code = 1#2 ∨ p.code = 2#2 := by
  cases p <;> decide

/-- A read shows `Idle` and `Ready` exactly in those states (R94). -/
theorem readsIdle_iff (s : State) : s.readsIdle = true ↔ s.phase = .idle ∧ s.seq = .ready := by
  rw [State.readsIdle, stat_phase, stat_seq]
  cases s.phase <;> cases s.seq <;> decide

/-- Settles O37, each field by `stat_getLsbD`. -/
theorem statFields : Obligations.StatFields := by
  intro s
  refine ⟨?_, stat_getLsbD s (by decide), stat_getLsbD s (by decide), ?_, stat_getLsbD s (by decide), stat_getLsbD s (by decide),
    stat_getLsbD s (by decide), stat_getLsbD s (by decide), stat_getLsbD s (by decide), stat_reserved s, rfl, fun _ => rfl, ?_⟩
  · rw [stat_phase]
    cases s.phase <;> rfl
  · rw [stat_seq]
    cases s.seq <;> rfl
  · rw [stat_phase]
    exact live_iff_code s.phase

/-! ## `wait_idle` -/

/-- While the host port is ready the inputs that must wait are delay ends, which the environment does not offer then. -/
theorem waits_of_ready {s : State} (hq : s.seq = .ready) {y : Stimulus} (hy : y.isHost = true ∨ y = .delayDone) :
    (s.takes y && !y.isHost) = false := by
  rcases hy with hy | rfl
  · simp [hy]
  · simp [State.takes, hq]

theorem isDelayDone_of_waits {s : State} (hq : s.seq = .ready) {y : Stimulus} (hy : inputWaits s y) : y = .delayDone :=
  hy.elim (fun h => absurd hq h.2) (·.1)

/-- A failing read with nothing of the environment's to take comes again at once (log 24). -/
theorem pollAgain_of_none {s : State} (hq : s.seq = .ready) (h : ∀ y ∈ s.stim, y.isHost = true ∨ y = .delayDone) :
    s.pollAgain = .host .waitIdle :: s.stim := by
  rw [State.pollAgain, takeFirst_eq_none fun y hy => waits_of_ready hq (h y hy)]

/-- A failing read lets the environment's first input go before the next read (log 24). -/
theorem pollAgain_of_first {s : State} (hq : s.seq = .ready) {pre post : List Stimulus} {y : Stimulus}
    (hs : s.stim = pre ++ y :: post) (hpre : ∀ z ∈ pre, z.isHost = true ∨ z = .delayDone) (hy : y.isHost = false)
    (hd : y ≠ .delayDone) : s.pollAgain = y :: .host .waitIdle :: (pre ++ post) := by
  have hyt : (s.takes y && !y.isHost) = true := by
    cases y with
    | host op => cases hy
    | delayDone => exact absurd rfl hd
    | byteEvent | reset | busCommand => rfl
  rw [State.pollAgain, hs, takeFirst_append (fun z hz => waits_of_ready hq (hpre z hz)) hyt]

/-- A step of `wait_idle` (R94). -/
theorem step_waitIdle {s : State} {pre rest : List Stimulus} (hq : s.seq = .ready) (hd : s.handlerDue = false)
    (hs : s.stim = pre ++ .host .waitIdle :: rest) (hpre : ∀ y ∈ pre, inputWaits s y) :
    step s = .next { s with
      cplPulse := none
      hostOut := some (.register s.stat)
      stim := if s.phase = .idle then pre ++ rest else { s with stim := pre ++ rest }.pollAgain } := by
  rw [step_of_input hd hs hpre (takes_host hq _)]
  have hi : { s with cplPulse := none, hostOut := none, stim := pre ++ rest }.readsIdle = true ↔ s.phase = .idle :=
    (readsIdle_iff _).trans (and_iff_left hq)
  simp only [deliver, deliverHost, Fetched.outcome, pollStat, hi]
  rfl

/-- Settles O8: the read shows `Idle` exactly in `Idle`, and a failing read leaves what `pollAgain` says. -/
theorem waitIdlePollsStat : Obligations.WaitIdlePollsStat := by
  intro s pre rest hq hd hs hpre
  rw [step_waitIdle hq hd hs hpre]
  have hwait : ∀ y ∈ pre, y.isHost = true ∨ y = .delayDone := fun y hy => .inr (isDelayDone_of_waits hq (hpre y hy))
  refine ⟨fun hp => by rw [if_pos hp], fun hp hrest => ?_, fun mid y post hp hmid hhost hy hyd => ?_⟩
  · rw [if_neg hp, pollAgain_of_none]
    · exact hq
    · exact List.forall_mem_append.2 ⟨hwait, hrest⟩
  · have hstim : pre ++ rest = (pre ++ mid) ++ y :: post := by rw [hmid, List.append_assoc]
    rw [if_neg hp, pollAgain_of_first (pre := pre ++ mid) _ hstim _ hy hyd]
    · exact hq
    · exact List.forall_mem_append.2 ⟨hwait, hhost⟩

/-! ## Registers and buffers -/

/-- Settles O38, by the register's number. -/
theorem registerWritesKeepTheirBits : Obligations.RegisterWritesKeepTheirBits := by
  intro s n v hn
  refine ⟨s.writeRegister n v, rfl, ?_⟩
  match n with
  | 0 => exact absurd rfl hn
  | 1 | 2 | 3 | 4 | 5 | 6 | 7 | n + 8 => simp [State.writeRegister, BitVec.setWidth_eq_extractLsb']

/-- Settles O39, by the register's number. -/
theorem registerReadsPadWithZeros : Obligations.RegisterReadsPadWithZeros := by
  intro s n
  refine ⟨s.readRegister n, rfl, ?_⟩
  unfold State.readRegister
  split <;> simp [-BitVec.toNat_setWidth, BitVec.toNat_setWidth_of_le]

/-- Settles O36, by what a host access can do. -/
theorem hostAccessFrame : Obligations.HostAccessFrame := by
  intro s t op h
  rcases hostAccess_eq_next h with ⟨n, v, -, rfl⟩ | ⟨d, rfl⟩ | ⟨a, b, rfl, rfl⟩ | ⟨a, b, rfl, rfl⟩
  · obtain ⟨a, p, c, q, r, k, hw⟩ := writeRegister_eq s n v
    rw [hw]
    exact ⟨.refl s, ⟨rfl, rfl, rfl⟩, rfl, rfl, rfl, rfl, rfl, rfl, rfl, rfl, fun _ _ => rfl, fun _ _ => rfl⟩
  · exact ⟨.refl s, ⟨rfl, rfl, rfl⟩, rfl, rfl, rfl, rfl, rfl, rfl, rfl, rfl, fun _ _ => rfl, fun _ _ => rfl⟩
  · refine ⟨.refl s, ⟨rfl, rfl, rfl⟩, rfl, rfl, rfl, rfl, rfl, rfl, rfl, rfl, fun c hc => ?_, fun _ _ => rfl⟩
    rw [Memory.read_write, if_neg]
    exact fun h => hc b (by rw [BitVec.eq_of_toNat_eq h])
  · refine ⟨.refl s, ⟨rfl, rfl, rfl⟩, rfl, rfl, rfl, rfl, rfl, rfl, rfl, rfl, fun _ _ => rfl, fun c hc => ?_⟩
    rw [Memory.read_write, if_neg]
    exact fun h => hc b (by rw [BitVec.eq_of_toNat_eq h])

end Sys2Proof.Machine

/-!
PROOFS of the family 20_memory: the buffers, the window as the host meets it, and the two phases that move bytes.
-/

namespace Sys2Proof.Machine

/-! ## Buffers as data -/

/-- Below its lowest index a buffer has no value. -/
theorem Memory.read_eq_none_of_lt {a : Nat} {m : Memory} (h : ∀ c ∈ m, a < c.1) : Memory.read a m = none := by
  induction m with
  | nil => rfl
  | cons x m ih =>
    rw [Memory.read, if_neg (h x List.mem_cons_self).ne']
    exact ih fun c hc => h c (List.mem_cons_of_mem _ hc)

/-- The byte a canonical buffer lists first is the one with the lowest index. -/
theorem Memory.head_le_of_read {k l : Nat} {b c : Byte} {m : Memory} (hm : Memory.wf ((l, c) :: m) = true)
    (hk : Memory.read k ((l, c) :: m) = some b) : l ≤ k := by
  obtain ⟨-, hlt, -⟩ := Memory.wf_cons.1 hm
  by_contra hkl
  have hnone : Memory.read k ((l, c) :: m) = none :=
    Memory.read_eq_none_of_lt (List.forall_mem_cons.2 ⟨by omega, fun x hx => by have := hlt x hx; omega⟩)
  exact Option.some_ne_none b (hk.symm.trans hnone)

@[simp] theorem Memory.read_head (k : Nat) (b : Byte) (m : Memory) : Memory.read k ((k, b) :: m) = some b := if_pos rfl

/-- Canonical buffers that read alike are the same list: each list's first index is the lowest one with a value. -/
theorem Memory.eq_of_read_eq {m n : Memory} (hm : Memory.wf m = true) (hn : Memory.wf n = true)
    (h : ∀ a, Memory.read a m = Memory.read a n) : m = n := by
  induction m generalizing n with
  | nil =>
    cases n with
    | nil => rfl
    | cons y n => exact absurd ((h y.1).trans (Memory.read_head y.1 y.2 n)) (by simp)
  | cons x m ih =>
    cases n with
    | nil => exact absurd ((h x.1).symm.trans (Memory.read_head x.1 x.2 m)) (by simp)
    | cons y n =>
      obtain ⟨k, b⟩ := x
      obtain ⟨l, c⟩ := y
      have hlk : l ≤ k := Memory.head_le_of_read hn ((h k).symm.trans (Memory.read_head k b m))
      have hkl : k ≤ l := Memory.head_le_of_read hm ((h l).trans (Memory.read_head l c n))
      obtain rfl : k = l := hkl.antisymm hlk
      obtain rfl : b = c := by simpa using h k
      obtain ⟨-, hltm, hm⟩ := Memory.wf_cons.1 hm
      obtain ⟨-, hltn, hn⟩ := Memory.wf_cons.1 hn
      rw [ih hm hn fun a => ?_]
      by_cases ha : k = a
      · subst ha
        rw [Memory.read_eq_none_of_lt hltm, Memory.read_eq_none_of_lt hltn]
      · simpa [Memory.read, ha] using h a

/-- Settles O45: the laws of `Memory.write`, and `Memory.eq_of_read_eq`. -/
theorem memoryReadsBackAndIsCanonical : Obligations.MemoryReadsBackAndIsCanonical :=
  ⟨fun m a c b hm ha => ⟨Memory.wf_write hm ha, Memory.read_write a c b m⟩, fun _ _ => Memory.eq_of_read_eq⟩

/-- Bytes written from an index on, none above 255, read back in order, and every other index reads as before. -/
theorem Memory.read_writeFrom {bytes : List Byte} {a : Byte} (h : a.toNat + bytes.length ≤ 256) (m : Memory) (c : Nat) :
    Memory.read c (Memory.writeFrom a bytes m) =
      if a.toNat ≤ c ∧ c < a.toNat + bytes.length then bytes[c - a.toNat]? else Memory.read c m := by
  induction bytes generalizing a m with
  | nil => simp [Memory.writeFrom]
  | cons b bs ih =>
    rw [List.length_cons] at h
    rw [Memory.writeFrom]
    by_cases hbs : bs = []
    · subst hbs
      rw [Memory.writeFrom, Memory.read_write]
      by_cases hc : c = a.toNat
      · simp [hc]
      · rw [if_neg hc, if_neg (by simp; omega)]
    · have hpos : 0 < bs.length := List.length_pos_iff.2 hbs
      have ha : (a + 1#8).toNat = a.toNat + 1 := by rw [BitVec.toNat_add, BitVec.toNat_ofNat]; omega
      rw [ih (by omega), ha, Memory.read_write, List.length_cons]
      rcases lt_trichotomy c a.toNat with hc | hc | hc
      · rw [if_neg (by omega), if_neg (by omega), if_neg (by omega)]
      · subst hc
        simp
      · have hsub : c - a.toNat = c - (a.toNat + 1) + 1 := by omega
        rw [hsub, List.getElem?_cons_succ, if_neg hc.ne']
        exact if_congr (by omega) rfl rfl

/-! ## The ownership window at the host port -/

/-- The engine owns a `TXBUF` byte while a transaction is live, in the range of its descriptor (R68). -/
theorem ownsTx_iff (s : State) (a : Byte) :
    s.ownsTx a = true ↔ s.phase.live = true ∧ s.own.wptr.toNat ≤ a.toNat ∧ a.toNat < s.own.wptr.toNat + s.own.wcnt.toNat := by
  simp [State.ownsTx, inRange]

/-- The engine owns an `RXBUF` byte while a transaction is live, in the range of its descriptor (R68). -/
theorem ownsRx_iff (s : State) (a : Byte) :
    s.ownsRx a = true ↔ s.phase.live = true ∧ s.own.rptr.toNat ≤ a.toNat ∧ a.toNat < s.own.rptr.toNat + s.own.rcnt.toNat := by
  simp [State.ownsRx, inRange]

/-- Settles O40, one clause for each kind of access. -/
theorem hostBufferAccess : Obligations.HostBufferAccess := by
  intro s a b
  rw [← ownsTx_iff, ← ownsRx_iff]
  refine ⟨fun h => ⟨_, fun c => Memory.read_write .., if_neg h⟩, fun hl h1 h2 => if_pos ((ownsTx_iff s a).2 ⟨hl, h1, h2⟩),
    fun h => ?_, fun h => ⟨⟨_, fun c => Memory.read_write .., if_neg h⟩, fun hb => ?_⟩, fun hl h1 h2 => ?_⟩
  · simp only [hostAccess, hostReadTx, h]
    rfl
  · simp only [hostAccess, hostReadRx, if_neg h, hb]
    rfl
  · have h : s.ownsRx a = true := (ownsRx_iff s a).2 ⟨hl, h1, h2⟩
    exact ⟨if_pos h, if_pos h⟩

/-! ## What a handler step leaves -/

/-- What no handler step writes: the foreground's state, `ERR_BUSY_START` and the status answer (R202). -/
structure HostKept (s t : State) : Prop where
  foreground : sameForeground s t := by exact ⟨rfl, rfl, rfl, rfl, rfl, rfl, rfl, rfl, rfl, rfl, rfl, rfl, rfl⟩
  errBusyStart : t.errBusyStart = s.errBusyStart := by rfl
  ansStatus : t.ansStatus = s.ansStatus := by rfl

theorem HostKept.trans {s u t : State} (h : HostKept s u) (h' : HostKept u t) : HostKept s t where
  foreground := by
    have hu := h.foreground
    have ht := h'.foreground
    simp_all only [sameForeground, and_self]
  errBusyStart := h'.errBusyStart.trans h.errBusyStart
  ansStatus := h'.ansStatus.trans h.ansStatus

/-- What only a continuation writes (R142, R201). -/
structure OutcomeKept (s t : State) : Prop where
  results : sameResults s t := by exact ⟨rfl, rfl, rfl⟩
  errBadDesc : t.errBadDesc = s.errBadDesc := by rfl
  cplPulse : t.cplPulse = s.cplPulse := by rfl

theorem OutcomeKept.trans {s u t : State} (h : OutcomeKept s u) (h' : OutcomeKept u t) : OutcomeKept s t where
  results := ⟨h'.results.1.trans h.results.1, h'.results.2.1.trans h.results.2.1, h'.results.2.2.trans h.results.2.2⟩
  errBadDesc := h'.errBadDesc.trans h.errBadDesc
  cplPulse := h'.cplPulse.trans h.cplPulse

/-- `Complete()` leaves the host's part and `RXBUF`, and with no continuation the outcome too (R139). -/
theorem complete_frame {k : Option Continuation} {s t : State} (h : complete k s = .next t) :
    HostKept s t ∧ t.rxbuf = s.rxbuf ∧ (k = none → OutcomeKept s t) := by
  rcases complete_eq_next h with ⟨-, rfl⟩ | ⟨rfl, rfl⟩ | ⟨rfl, r, rfl⟩ | ⟨rfl, r, rfl⟩ | ⟨rfl, r, rfl⟩ | ⟨rfl, -, rfl⟩ |
    ⟨rfl, -, rfl⟩
  · exact ⟨{ }, rfl, fun _ => { }⟩
  · exact ⟨{ }, rfl, nofun⟩
  · exact ⟨{ }, rfl, nofun⟩
  · exact ⟨{ }, rfl, nofun⟩
  · exact ⟨{ }, rfl, nofun⟩
  · exact ⟨{ }, rfl, nofun⟩
  · rw [accept_eq]
    exact ⟨{ }, rfl, nofun⟩

/-- What a handler step leaves before it completes: `u` differs from `s` in the engine's registers, the trace, and the `RXBUF` byte
at `RPTR` if a byte was received (R132 to R137). -/
structure Moved (w : StatusWord) (s u : State) : Prop where
  host : HostKept s u := by exact { }
  outcome : OutcomeKept s u := by exact { }
  cpl : u.cpl = s.cpl := by rfl
  rxbuf : u.rxbuf = s.rxbuf ∨ (s.phase = .reading ∧ w = statusFull ∧ ∃ b, u.rxbuf = Memory.write s.rptr.toNat b s.rxbuf) := by
    exact .inl rfl

/-- A handler step moves at most one byte and then may complete. -/
theorem busEvent_moved {s t : State} {w : StatusWord} (h : exec (.busEvent w) s = .next t) :
    ∃ u, Moved w s u ∧ (t = u ∨ completeLive u = .next t) := by
  obtain ⟨-, ⟨rfl, -⟩ | ⟨-, -, h⟩ | ⟨-, -, -, -, rfl⟩ | ⟨-, -, -, -, h⟩ | ⟨-, -, h⟩ | ⟨hp, hw, -, h⟩ | ⟨hp, hw, -, h⟩⟩ :=
    execBusEvent_eq_next h
  · exact ⟨_, { }, .inl rfl⟩
  · obtain ⟨b, -, rfl⟩ := branchW1_eq_next h
    exact ⟨_, { }, .inl rfl⟩
  · exact ⟨_, { }, .inl rfl⟩
  · exact ⟨_, { }, .inr h⟩
  · rw [branchRD0_eq] at h
    injection h with h
    subst h
    exact ⟨_, { }, .inl rfl⟩
  · rw [branchRD1_eq] at h
    injection h with h
    subst h
    exact ⟨_, { rxbuf := .inr ⟨hp, hw, _, rfl⟩ }, .inl rfl⟩
  · rw [branchRD2_eq] at h
    exact ⟨_, { rxbuf := .inr ⟨hp, hw, _, rfl⟩ }, .inr h⟩

/-- What a whole handler step leaves: what the move left, and the outcome if no continuation is registered (R139). -/
theorem busEvent_frame {s t : State} {w : StatusWord} (h : exec (.busEvent w) s = .next t) :
    HostKept s t ∧ (cplSet s.cpl = false → OutcomeKept s t) ∧
    (t.rxbuf = s.rxbuf ∨ (s.phase = .reading ∧ w = statusFull ∧ ∃ b, t.rxbuf = Memory.write s.rptr.toNat b s.rxbuf)) := by
  obtain ⟨u, hu, rfl | h⟩ := busEvent_moved h
  · exact ⟨hu.host, fun _ => hu.outcome, hu.rxbuf⟩
  · obtain ⟨k, hk, h⟩ := completeLive_eq_next h
    obtain ⟨hhost, hrx, hout⟩ := complete_frame h
    refine ⟨hu.host.trans hhost, fun hset => hu.outcome.trans (hout ?_), hrx ▸ hu.rxbuf⟩
    rw [hu.cpl, continuationOf_none_iff.2 hset] at hk
    injection hk with hk
    exact hk.symm

/-- Settles O33, by `busEvent_frame`. -/
theorem handlerStepFrame : Obligations.HandlerStepFrame := by
  intro s t w h
  obtain ⟨hhost, hout, hrx⟩ := busEvent_frame h
  refine ⟨hhost.foreground, hhost.errBusyStart, hhost.ansStatus, fun a ha => ?_, fun hw => ?_, fun hset =>
    ⟨(hout hset).results, (hout hset).errBadDesc, (hout hset).cplPulse⟩⟩
  · rcases hrx with hrx | ⟨-, -, b, hrx⟩
    · rw [hrx]
    · rw [hrx, Memory.read_write, if_neg ha]
  · rcases hrx with hrx | ⟨hp, rfl, -⟩
    · exact hrx
    · rcases hw with hw | hw | hw
      · exact absurd hp hw
      · cases hw
      · cases hw

/-! ## Each branch of a handler step, forward -/

/-- A handler step samples the status and then runs the branch it selects (R132). -/
theorem exec_busEvent {s : State} (he : s.evPend = true) (w : StatusWord) :
    exec (.busEvent w) s = dispatchEvent w (s.afterSample w) := by
  rw [exec, execBusEvent, if_pos he, takeByteEvent_eq, State.afterSample]

/-- After branch W1 has sent `b`: the whole next state (R133). -/
def State.sentByte (s : State) (w : StatusWord) (b : Byte) : State :=
  { s with
    evPend := false
    wptr := s.wptr + 1#8
    wrem := s.wrem - 1#8
    bcTrace := s.bcTrace ++ [sampled w, sent (0x900#12 + b.setWidth 12)] ++
      (if s.wrem - 1#8 = 0#8 then [sent 0x600#12] else []) }

/-- A handler step in branch W1 (R133). -/
theorem exec_busEvent_W1 {s : State} {w : StatusWord} {b : Byte} (he : s.evPend = true) (hp : s.phase = .writing)
    (hw : 0 < s.wrem.toNat) (hb : Memory.read s.wptr.toNat s.txbuf = some b) :
    exec (.busEvent w) s = .next (s.sentByte w b) := by
  rw [exec_busEvent he]
  simp only [dispatchEvent, State.afterSample, hp, hw, if_true, branchW1, hb]
  split <;> simp [State.log, State.sentByte, *]

/-- After branch RD0: the whole next state (R135). -/
def State.primed (s : State) : State :=
  { s with
    evPend := false
    bcTrace := s.bcTrace ++ [sampled statusUnprimed, sent 0x500#12] ++ (if s.rrem = 1#8 then [sent 0x600#12] else []) }

/-- A handler step in branch RD0 (R135). -/
theorem exec_busEvent_RD0 {s : State} (he : s.evPend = true) (hp : s.phase = .reading) :
    exec (.busEvent statusUnprimed) s = .next s.primed := by
  rw [exec_busEvent he]
  simp [dispatchEvent, State.afterSample, hp, statusUnprimed, branchRD0_eq, State.primed]

/-- After branch RD1 has stored `b`, a data answer that an input fixed: the whole next state (R136). -/
def State.receivedByte (s : State) (b : Byte) : State :=
  { s with
    evPend := false
    rrem := s.rrem - 1#8
    rptr := s.rptr + 1#8
    rxbuf := Memory.write s.rptr.toNat b s.rxbuf
    ansData := none
    bcTrace := s.bcTrace ++ [sampled statusFull, sent 0x500#12, received b] ++
      (if s.rrem - 1#8 = 1#8 then [sent 0x600#12] else []) }

/-- A handler step in branch RD1 (R136). -/
theorem exec_busEvent_RD1 {s : State} {b : Byte} (he : s.evPend = true) (hp : s.phase = .reading) (hr : 1 < s.rrem.toNat)
    (hb : s.ansData = some b) :
    exec (.busEvent statusFull) s = .next (s.receivedByte b) := by
  rw [exec_busEvent he]
  simp [dispatchEvent, State.afterSample, hp, hr, statusFull, branchRD1_eq, State.dataAnswer, hb, State.receivedByte]

/-- `Complete()` with no continuation registered retires (R139). -/
theorem completeLive_of_not_set {s : State} (h : cplSet s.cpl = false) :
    completeLive s = .next { s with phase := .idle, cpl := 0#4, tail := false } := by
  simp [completeLive, continuationOf_none_iff.2 h, complete, State.retire]

/-- A handler step in branch RD2, with no continuation registered (R137): the whole next state. -/
theorem exec_busEvent_RD2 {s : State} {b : Byte} (he : s.evPend = true) (hp : s.phase = .reading) (hr : s.rrem = 1#8)
    (hb : s.ansData = some b) (hset : cplSet s.cpl = false) :
    exec (.busEvent statusFull) s = .next { s with
      evPend := false
      rrem := 0#8
      rptr := s.rptr + 1#8
      rxbuf := Memory.write s.rptr.toNat b s.rxbuf
      ansData := none
      bcTrace := s.bcTrace ++ [sampled statusFull, received b]
      phase := .idle
      cpl := 0#4
      tail := false } := by
  rw [exec_busEvent he]
  simp [dispatchEvent, State.afterSample, hp, hr, statusFull, branchRD2_eq, State.dataAnswer, hb, completeLive_of_not_set, hset]

/-! ## Events in a row -/

/-- An event whose handler step answers a next state leaves the rest of the events to that state. -/
theorem serveEvents_cons {w : StatusWord} {b : Byte} {s t : State} (h : exec (.busEvent w) (s.raiseEvent w.bits (some b)) = .next t)
    (es : List (StatusWord × Byte)) : serveEvents ((w, b) :: es) s = serveEvents es t := by
  rw [serveEvents, h]

/-! ## The write phase -/

/-- What the events of a write phase put into the trace from any count on; with none to come, nothing. -/
def writePhaseTrace (es : List (StatusWord × Byte)) (bytes : List Byte) : List BusEntry :=
  if es = [] then [] else writeTrace es bytes

/-- Each event samples and sends one byte; the mark comes with the last (R133, R149). -/
theorem writePhaseTrace_cons (e : StatusWord × Byte) (es : List (StatusWord × Byte)) (b : Byte) (bs : List Byte) :
    writePhaseTrace (e :: es) (b :: bs) =
      [sampled e.1, sent (0x900#12 + b.setWidth 12)] ++ (if es = [] then [sent 0x600#12] else []) ++ writePhaseTrace es bs := by
  by_cases hes : es = []
  · simp [writePhaseTrace, writeTrace, hes]
  · simp [writePhaseTrace, writeTrace, hes]

/-- The write phase from any count on, by induction on the events (R133). -/
theorem serveEvents_writing {es : List (StatusWord × Byte)} {bytes : List Byte} {s : State} (hp : s.phase = .writing)
    (hes : es.length = s.wrem.toNat) (hbytes : bytes.length = s.wrem.toNat) (hfit : s.wptr.toNat + s.wrem.toNat ≤ 256)
    (hread : ∀ k, k < s.wrem.toNat → Memory.read (s.wptr.toNat + k) s.txbuf = bytes[k]?) :
    ∃ t, serveEvents es s = .next t ∧ t.phase = .writing ∧ t.wrem = 0#8 ∧ t.wptr = s.wptr + s.wrem ∧ t.rrem = s.rrem ∧
      t.rptr = s.rptr ∧ t.tail = s.tail ∧ t.cpl = s.cpl ∧ t.taddr = s.taddr ∧ t.rxbuf = s.rxbuf ∧ t.txbuf = s.txbuf ∧
      t.bcTrace = s.bcTrace ++ writePhaseTrace es bytes := by
  induction es generalizing s bytes with
  | nil =>
    have hw : s.wrem = 0#8 := BitVec.eq_of_toNat_eq hes.symm
    exact ⟨s, rfl, hp, hw, by simp [hw], rfl, rfl, rfl, rfl, rfl, rfl, rfl, by simp [writePhaseTrace]⟩
  | cons e es ih =>
    obtain ⟨w, x⟩ := e
    obtain ⟨b, bs, rfl⟩ := List.exists_cons_of_length_eq_add_one (hbytes.trans hes.symm)
    rw [List.length_cons] at hes hbytes
    have hw : 0 < s.wrem.toNat := by omega
    have hdec : (s.wrem - 1#8).toNat + 1 = s.wrem.toNat := toNat_sub_one_add_one hw
    have hadv : 0 < (s.wrem - 1#8).toNat → (s.wptr + 1#8).toNat = s.wptr.toNat + 1 := fun h => by
      rw [BitVec.toNat_add, BitVec.toNat_ofNat, Nat.mod_eq_of_lt (by omega)]
    have hlast : s.wrem - 1#8 = 0#8 ↔ es = [] := by
      rw [← BitVec.toNat_inj, ← List.length_eq_zero_iff, BitVec.toNat_ofNat]
      omega
    have hes' : es.length = (s.wrem - 1#8).toNat := by omega
    have hbytes' : bs.length = (s.wrem - 1#8).toNat := by omega
    have hfit' : (s.wptr + 1#8).toNat + (s.wrem - 1#8).toNat ≤ 256 := by omega
    have hread' : ∀ k, k < (s.wrem - 1#8).toNat → Memory.read ((s.wptr + 1#8).toNat + k) s.txbuf = bs[k]? := fun k hk => by
      rw [hadv (by omega), Nat.add_right_comm]
      exact hread (k + 1) (by omega)
    have hstep := exec_busEvent_W1 (s := s.raiseEvent w.bits (some x)) (w := w) rfl hp hw (hread 0 hw)
    obtain ⟨t, ht, hpt, hwt, hwptr, hrrem, hrptr, htail, hcpl, htaddr, hrx, htx, htrace⟩ :=
      ih (s := (s.raiseEvent w.bits (some x)).sentByte w b) hp hes' hbytes' hfit' hread'
    refine ⟨t, (serveEvents_cons hstep es).trans ht, hpt, hwt, ?_, hrrem, hrptr, htail, hcpl, htaddr, hrx, htx, ?_⟩
    · exact hwptr.trans (show s.wptr + 1#8 + (s.wrem - 1#8) = s.wptr + s.wrem by bv_omega)
    · rw [htrace, writePhaseTrace_cons]
      simp only [State.sentByte, State.raiseEvent_bcTrace, State.raiseEvent_wrem, hlast, List.append_assoc]

/-- Settles O58: the phase has a byte to send, so its events are not none. -/
theorem writePhaseSendsBytesInOrder : Obligations.WritePhaseSendsBytesInOrder := by
  intro es bytes s hp hes hbytes hw hfit hread
  have hne : es ≠ [] := fun h => by simp [h] at hes; omega
  have h := serveEvents_writing hp hes hbytes hfit hread
  rwa [writePhaseTrace, if_neg hne] at h

/-! ## The read phase -/

/-- The bytes of a read phase, by induction on them: all but the last count down, the last one completes (R136, R137). -/
theorem serveEvents_reading {bytes : List Byte} {s : State} (hp : s.phase = .reading) (hr : 0 < s.rrem.toNat)
    (hbytes : bytes.length = s.rrem.toNat) (hset : cplSet s.cpl = false) :
    ∃ t, serveEvents (bytes.map fun b => (statusFull, b)) s = .next t ∧ t.phase = .idle ∧ t.rrem = 0#8 ∧ t.rptr = s.rptr + s.rrem ∧
      t.cplPulse = s.cplPulse ∧ t.txbuf = s.txbuf ∧ t.rxbuf = Memory.writeFrom s.rptr bytes s.rxbuf ∧
      t.bcTrace = s.bcTrace ++ readTrace bytes := by
  induction bytes generalizing s with
  | nil => simp at hbytes; omega
  | cons b bs ih =>
    rw [List.length_cons] at hbytes
    cases bs with
    | nil =>
      have hone : s.rrem = 1#8 := BitVec.eq_of_toNat_eq hbytes.symm
      have hstep := exec_busEvent_RD2 (s := s.raiseEvent statusFull.bits (some b)) rfl hp hone rfl hset
      exact ⟨_, serveEvents_cons hstep [], rfl, rfl, by rw [hone]; rfl, rfl, rfl, rfl, rfl⟩
    | cons c bs =>
      have hr1 : 1 < s.rrem.toNat := by simp at hbytes; omega
      have hdec : (s.rrem - 1#8).toNat + 1 = s.rrem.toNat := toNat_sub_one_add_one hr
      have hlast : s.rrem - 1#8 = 1#8 ↔ bs = [] := by
        rw [← BitVec.toNat_inj, ← List.length_eq_zero_iff, BitVec.toNat_ofNat]
        rw [List.length_cons] at hbytes
        omega
      have hstep := exec_busEvent_RD1 (s := s.raiseEvent statusFull.bits (some b)) rfl hp hr1 rfl
      have hr' : 0 < (s.rrem - 1#8).toNat := by omega
      have hbytes' : (c :: bs).length = (s.rrem - 1#8).toNat := by omega
      obtain ⟨t, ht, hpt, hrt, hrptr, hpulse, htx, hrx, htrace⟩ :=
        ih (s := (s.raiseEvent statusFull.bits (some b)).receivedByte b) hp hr' hbytes' hset
      refine ⟨t, (serveEvents_cons hstep _).trans ht, hpt, hrt, ?_, hpulse, htx, hrx, ?_⟩
      · exact hrptr.trans (show s.rptr + 1#8 + (s.rrem - 1#8) = s.rptr + s.rrem by bv_omega)
      · rw [htrace, readTrace]
        simp only [State.receivedByte, State.raiseEvent_bcTrace, State.raiseEvent_rrem, hlast, List.append_assoc]

/-- Settles O59: the unprimed event acknowledges, then the bytes come, and `Memory.read_writeFrom` says where they are. -/
theorem readPhaseStoresBytesInOrder : Obligations.ReadPhaseStoresBytesInOrder := by
  intro u bytes s hp hr hbytes hfit hset
  have hstep := exec_busEvent_RD0 (s := s.raiseEvent statusUnprimed.bits (some u)) rfl hp
  obtain ⟨t, ht, hpt, hrt, hrptr, hpulse, htx, hrx, htrace⟩ :=
    serveEvents_reading (s := (s.raiseEvent statusUnprimed.bits (some u)).primed) hp hr hbytes hset
  have hread := Memory.read_writeFrom (hbytes ▸ hfit) s.rxbuf
  refine ⟨t, (serveEvents_cons hstep _).trans ht, hpt, hrt, hrptr, hpulse, htx, fun k hk => ?_, fun a ha => ?_, htrace⟩
  · rw [hrx]
    exact (hread _).trans (by rw [if_pos (by omega), Nat.add_sub_cancel_left])
  · rw [hrx]
    exact (hread a).trans (if_neg (by omega))

end Sys2Proof.Machine

/-!
PROOFS of the family 30_encoding: decoding and encoding agree, the match and mask tables, and what a query appends.
-/

namespace Sys2Proof.Machine

/-! ## Fields of the encoded words -/

@[simp] theorem busCode_busWord (code : BitVec 4) (arg : Byte) : (busWord code arg).extractLsb' 8 4 = code :=
  BitVec.extractLsb'_append_eq_left

@[simp] theorem busArg_busWord (code : BitVec 4) (arg : Byte) : (busWord code arg).extractLsb' 0 8 = arg :=
  BitVec.extractLsb'_append_eq_right

/-- A controller word is made of its `code` and its `arg` (R83). -/
theorem busWord_of_fields (w : BusWord) : busWord (w.extractLsb' 8 4) (w.extractLsb' 0 8) = w :=
  (BitVec.extractLsb'_append_extractLsb'_eq_extractLsb' rfl).trans BitVec.extractLsb'_eq_self

@[simp] theorem ofBit_bit (which : Limit) : Limit.ofBit which.bit = which := by
  cases which <;> rfl

@[simp] theorem ofBits_bits (s : StatusWord) : StatusWord.ofBits s.bits = s := by
  obtain ⟨phase, full⟩ := s
  cases phase <;> cases full <;> rfl

@[simp] theorem bits_ofBits (w : BitVec 2) : (StatusWord.ofBits w).bits = w := by
  revert w; decide

theorem addressArg_bit (a : Address) : (addressArg a).getLsbD 7 = false := by
  revert a; decide

@[simp] theorem addressedBus_addressArg (a : Address) (f : Address → Instr) : addressedBus (addressArg a) f = .ok (f a) := by
  have haddr : (addressArg a).extractLsb' 0 7 = a := BitVec.extractLsb'_append_eq_right
  rw [addressedBus, addressArg_bit, haddr]
  rfl

/-- The limits that have an encoding are the values of the signed immediate (R93). -/
theorem limitInRange_iff (v : Int) : limitInRange v = true ↔ (BitVec.ofInt 16 v).toInt = v := by
  simp only [limitInRange, Bool.and_eq_true, decide_eq_true_eq]
  constructor
  · rintro ⟨hlow, hhigh⟩
    exact BitVec.toInt_ofInt_eq_self (by decide) hlow (by omega)
  · intro h
    have hlow := (BitVec.ofInt 16 v).le_toInt
    have hhigh := (BitVec.ofInt 16 v).toInt_lt
    omega

/-! ## Decoding an encoding -/

/-- The word of `WRITE_LIMIT` carries any selector and any immediate (R82). -/
theorem decodeHost_writeLimit (which : BitVec 1) (imm : Half) :
    decodeHost (hostWord 0x15#8 which imm) = .ok (.writeLimit (Limit.ofBit which) imm.toInt) := by
  simp [decodeHost]

/-- Decoding undoes encoding, whatever the operands (R80, R92). -/
theorem decode_encode {i : Instr} (h : i.wellFormed = true) : decode (encode i) = .ok i := by
  cases i with
  | configure mode =>
    have hhigh : (0#8 ++ mode).extractLsb' 8 8 = 0#8 := BitVec.extractLsb'_append_eq_left
    have hlow : (0#8 ++ mode).extractLsb' 0 8 = mode := BitVec.extractLsb'_append_eq_right
    simp [encode, decode, decodeHost, hhigh, hlow]
  | writeLimit which v => simp [encode, decode, decodeHost_writeLimit, (limitInRange_iff v).1 h]
  | readLimit which => cases which <;> rfl
  | bcConfigure mode => simp [encode, decode, decodeBus]
  | bcStartWrite a => simp [encode, decode, decodeBus]
  | bcStartRead a => simp [encode, decode, decodeBus]
  | bcWriteData b => simp [encode, decode, decodeBus]
  | busEvent s => simp [encode, decode]
  | cplNone id => revert id; decide
  | _ => rfl

/-- Settles O1: `decode_encode`, case by case over the rows. -/
theorem decodeEncodeAgree : Obligations.DecodeEncodeAgree := fun _ => decode_encode

/-- Settles O4, by running the decoder on each word. -/
theorem sampleWordsDecode : Obligations.SampleWordsDecode := by
  refine ⟨?_, ?_, ?_, ?_, ?_, ?_, ?_, ?_, ?_⟩ <;> decide

/-! ## Encoding what a word decodes to -/

/-- A command without an argument has the word of its `code` alone (R84). -/
theorem encode_of_plainBus {code : BitVec 4} {arg : Byte} {i j : Instr} (henc : encode i = .bus (busWord code 0#8))
    (h : plainBus arg i = .ok j) : encode j = .bus (busWord code arg) := by
  unfold plainBus at h
  split at h
  · cases h
  next harg =>
    injection h with h
    rw [← h, henc, not_not.1 harg]

/-- An argument with bit 7 clear is the address in its other bits (R83). -/
theorem addressArg_of_bit {arg : Byte} (h : arg.getLsbD 7 = false) : addressArg (arg.extractLsb' 0 7) = arg := by
  revert arg; decide

/-- A command with an address has the word of its `code` and that address (R84). -/
theorem encode_of_addressedBus {code : BitVec 4} {arg : Byte} {f : Address → Instr} {j : Instr}
    (henc : ∀ a, encode (f a) = .bus (busWord code (addressArg a))) (h : addressedBus arg f = .ok j) :
    encode j = .bus (busWord code arg) := by
  unfold addressedBus at h
  split at h
  · cases h
  next hbit =>
    injection h with h
    rw [← h, henc, addressArg_of_bit (Bool.eq_false_iff.2 hbit)]

theorem encode_of_decodeBus {w : BusWord} {i : Instr} (h : decodeBus w = .ok i) : encode i = .bus w := by
  rw [← busWord_of_fields w]
  simp only [decodeBus] at h
  split_ifs at h with hc hc hc hc hc hc hc hc hc <;> rw [hc]
  · injection h with h
    subst h
    rfl
  · exact encode_of_plainBus rfl h
  · exact encode_of_addressedBus (fun _ => rfl) h
  · exact encode_of_addressedBus (fun _ => rfl) h
  · exact encode_of_plainBus rfl h
  · exact encode_of_plainBus rfl h
  · exact encode_of_plainBus rfl h
  · exact encode_of_plainBus rfl h
  · injection h with h
    subst h
    rfl

/-- The continuation field is made of `set` and `id` (R87). -/
theorem cpl_of_fields (c : BitVec 4) : BitVec.ofBool (cplSet c) ++ cplId c = c := by
  revert c; decide

theorem encode_of_decodeCompletion {w : BitVec 4} {i : Instr} (h : decodeCompletion w = .ok i) : encode i = .completion w := by
  rw [← cpl_of_fields w]
  unfold decodeCompletion at h
  split at h
  next hk =>
    injection h with h
    rw [← h, encode, continuationOf_none_iff.1 hk]
    rfl
  next k hk =>
    injection h with h
    obtain ⟨hset, hid⟩ := continuationOf_some hk
    rw [← h, hset, hid]
    cases k <;> rfl
  next => cases h

/-- A word that decodes is the encoding of what it decodes to, at every port (R80, R92). -/
theorem encode_of_decode {p : PortWord} {i : Instr} (h : decode p = .ok i) : encode i = p := by
  cases p with
  | host w => exact encode_of_decodeHost h
  | bus w => exact encode_of_decodeBus h
  | event w =>
    injection h with h
    rw [← h, encode, bits_ofBits]
  | completion w => exact encode_of_decodeCompletion h
  | delay =>
    injection h with h
    rw [← h, encode]

/-- What a word decodes to has its operands in range: only a limit could lie outside, and it is read from 16 bits (R90). -/
theorem wellFormed_of_decode {p : PortWord} {i : Instr} (h : decode p = .ok i) : i.wellFormed = true := by
  cases i with
  | writeLimit which v =>
    rw [← encode_of_decode h] at h
    have hv := (decodeHost_writeLimit _ _).symm.trans h
    simp only [Except.ok.injEq, Instr.writeLimit.injEq] at hv
    exact (limitInRange_iff v).2 hv.2
  | _ => rfl

/-- Settles O2: no port's decoder drops a bit, and a decoded limit is in range. -/
theorem decodedWordIsTheEncoding : Obligations.DecodedWordIsTheEncoding :=
  fun _ _ h => ⟨wellFormed_of_decode h, encode_of_decode h⟩

/-! ## The tables of match and mask -/

/-- A field the mask covers holds what the match says. -/
theorem field_of_row {n : Nat} {w m k : BitVec n} (h : w &&& m = k) {start len : Nat}
    (hm : m.extractLsb' start len = BitVec.allOnes len) : w.extractLsb' start len = k.extractLsb' start len := by
  rw [← h, BitVec.extractLsb'_and, hm, BitVec.and_allOnes]

/-- Rows whose masks cover a field that tells them apart are disjoint. -/
theorem row_unique {n : Nat} {rows : List (BitVec n × BitVec n)} (start len : Nat)
    (hmask : ∀ r ∈ rows, r.2.extractLsb' start len = BitVec.allOnes len)
    (hkey : (rows.map fun r => r.1.extractLsb' start len).Nodup)
    {w : BitVec n} {r q : BitVec n × BitVec n} (hr : r ∈ rows) (hq : q ∈ rows) (hwr : w &&& r.2 = r.1) (hwq : w &&& q.2 = q.1) :
    r = q :=
  List.inj_on_of_nodup_map hkey hr hq ((field_of_row hwr (hmask r hr)).symm.trans (field_of_row hwq (hmask q hq)))

/-- The encoding of a controller command selects its row of the table (R84). -/
theorem busRow_of_encode {i : Instr} {w : BusWord} (h : encode i = .bus w) : ∃ r ∈ busRows, w &&& r.2 = r.1 := by
  have row : ∀ {k m : BusWord}, (∃ v, encode i = .bus v ∧ v &&& m = k) → (k, m) ∈ busRows →
      ∃ r ∈ busRows, w &&& r.2 = r.1 := by
    rintro k m ⟨v, hv, hr⟩ hmem
    obtain rfl : v = w := PortWord.bus.inj (hv.symm.trans h)
    exact ⟨_, hmem, hr⟩
  cases i with
  | bcConfigure mode => exact row (Laws.TableRow.bcConfigure mode) (by decide)
  | bcReset => exact row Laws.TableRow.bcReset (by decide)
  | bcStartWrite a => exact row (Laws.TableRow.bcStartWrite a) (by decide)
  | bcStartRead a => exact row (Laws.TableRow.bcStartRead a) (by decide)
  | bcAck => exact row Laws.TableRow.bcAck (by decide)
  | bcMarkLast => exact row Laws.TableRow.bcMarkLast (by decide)
  | bcStatus => exact row Laws.TableRow.bcStatus (by decide)
  | bcReadData => exact row Laws.TableRow.bcReadData (by decide)
  | bcWriteData b => exact row (Laws.TableRow.bcWriteData b) (by decide)
  | _ => cases h

theorem hostImm_upper (w : HostWord) : (hostImm w).extractLsb' 8 8 = w.extractLsb' 8 8 := by
  apply BitVec.eq_of_getLsbD_eq
  intro i hi
  simp [hostImm]

/-- A host word that selects a row is a command (R82): the mask covers `op`, `z` and what the row's operation does not carry. -/
theorem decodeHost_of_row {w : HostWord} {r : HostWord × HostWord} (hr : r ∈ hostRows) (hw : w &&& r.2 = r.1) :
    ∃ i, decodeHost w = .ok i := by
  have full : ∀ {k : HostWord}, w &&& 0xFFFFFFFF#32 = k → w = k := fun h => BitVec.and_allOnes.symm.trans h
  simp only [hostRows, List.mem_cons, List.not_mem_nil, or_false] at hr
  rcases hr with rfl | rfl | rfl | rfl | rfl | rfl | rfl | rfl
  · have hop : hostOpcode w = 0x01#8 := field_of_row hw (by rfl)
    have hz : hostZ w = 0#7 := field_of_row hw (by rfl)
    have hwhich : hostWhich w = 0#1 := field_of_row hw (by rfl)
    have himm : (hostImm w).extractLsb' 8 8 = 0#8 := (hostImm_upper w).trans (field_of_row hw (by rfl))
    simp [decodeHost, hop, hz, hwhich, himm]
  · exact ⟨.start, by rw [full hw]; rfl⟩
  · exact ⟨.powerUp, by rw [full hw]; rfl⟩
  · exact ⟨.powerDown, by rw [full hw]; rfl⟩
  · exact ⟨.startConv, by rw [full hw]; rfl⟩
  · exact ⟨.readMeas, by rw [full hw]; rfl⟩
  · have hop : hostOpcode w = 0x14#8 := field_of_row hw (by rfl)
    have hz : hostZ w = 0#7 := field_of_row hw (by rfl)
    have himm : hostImm w = 0#16 := field_of_row hw (by rfl)
    simp [decodeHost, hop, hz, himm]
  · have hop : hostOpcode w = 0x15#8 := field_of_row hw (by rfl)
    have hz : hostZ w = 0#7 := field_of_row hw (by rfl)
    simp [decodeHost, hop, hz]

/-- A controller word with bit 7 clear carries an address (R83). -/
theorem addressedBus_of_bit {w : BusWord} (h : w.extractLsb' 7 1 = 0#1) (f : Address → Instr) :
    addressedBus (w.extractLsb' 0 8) f = .ok (f ((w.extractLsb' 0 8).extractLsb' 0 7)) := by
  have hbit : (w.extractLsb' 0 8).getLsbD 7 = false := by
    simpa using congrArg (fun b => b.getLsbD 0) h
  rw [addressedBus, hbit]
  rfl

/-- A word that selects a row of the controller's table is a command (R84). -/
theorem decodeBus_of_row {w : BusWord} {r : BusWord × BusWord} (hr : r ∈ busRows) (hw : w &&& r.2 = r.1) :
    ∃ i, decodeBus w = .ok i := by
  have full : ∀ {k : BusWord}, w &&& 0xFFF#12 = k → w = k := fun h => BitVec.and_allOnes.symm.trans h
  simp only [busRows, List.mem_cons, List.not_mem_nil, or_false] at hr
  rcases hr with rfl | rfl | rfl | rfl | rfl | rfl | rfl | rfl | rfl
  · have hcode : w.extractLsb' 8 4 = 0x1#4 := field_of_row hw (by rfl)
    simp [decodeBus, hcode]
  · exact ⟨.bcReset, by rw [full hw]; rfl⟩
  · have hcode : w.extractLsb' 8 4 = 0x3#4 := field_of_row hw (by rfl)
    have hbit : w.extractLsb' 7 1 = 0#1 := field_of_row hw (by rfl)
    simp [decodeBus, hcode, addressedBus_of_bit hbit]
  · have hcode : w.extractLsb' 8 4 = 0x4#4 := field_of_row hw (by rfl)
    have hbit : w.extractLsb' 7 1 = 0#1 := field_of_row hw (by rfl)
    simp [decodeBus, hcode, addressedBus_of_bit hbit]
  · exact ⟨.bcAck, by rw [full hw]; rfl⟩
  · exact ⟨.bcMarkLast, by rw [full hw]; rfl⟩
  · exact ⟨.bcStatus, by rw [full hw]; rfl⟩
  · exact ⟨.bcReadData, by rw [full hw]; rfl⟩
  · have hcode : w.extractLsb' 8 4 = 0x9#4 := field_of_row hw (by rfl)
    simp [decodeBus, hcode]

/-- Settles O3: the encoding of a command lies in its row, `op` and `code` tell the rows apart. -/
theorem wordsLegalIffRowSelected : Obligations.WordsLegalIffRowSelected := by
  refine ⟨fun w => ⟨?_, ?_⟩, fun w r q => row_unique 24 8 (by simp [hostRows]) (by decide), fun w => ⟨?_, ?_⟩,
    fun w r q => row_unique 8 4 (by simp [busRows]) (by decide)⟩
  · rintro ⟨i, hi⟩
    exact hostRow_of_encode (encode_of_decodeHost hi)
  · rintro ⟨r, hr, hw⟩
    exact decodeHost_of_row hr hw
  · rintro ⟨i, hi⟩
    exact busRow_of_encode (encode_of_decodeBus hi)
  · rintro ⟨r, hr, hw⟩
    exact decodeBus_of_row hr hw

/-! ## What a query appends -/

/-- A status answer that an input fixed is used up, and no free value is drawn (R117). -/
theorem tookStatus_of_some {s : State} {w : BitVec 2} (h : s.ansStatus = some w) : s.tookStatus = { s with ansStatus := none } := by
  simp [State.tookStatus, h]

/-- Without one a free value is drawn (R117, log 5). -/
theorem tookStatus_of_none {s : State} (h : s.ansStatus = none) : s.tookStatus = { s with draws := s.draws + 1 } := by
  cases s
  cases h
  rfl

theorem tookData_of_some {s : State} {b : Byte} (h : s.ansData = some b) : s.tookData = { s with ansData := none } := by
  simp [State.tookData, h]

theorem tookData_of_none {s : State} (h : s.ansData = none) : s.tookData = { s with draws := s.draws + 1 } := by
  cases s
  cases h
  rfl

/-- `status()` appends its word with the answer (R117, R121). -/
theorem exec_bcStatus (s : State) :
    exec .bcStatus s = .next { s.tookStatus with bcTrace := s.bcTrace ++ [⟨0x700#12, .status s.statusAnswer⟩] } := rfl

/-- `read_data_byte()` appends its word with the answer (R118, R121). -/
theorem exec_bcReadData (s : State) :
    exec .bcReadData s = .next { s.tookData with bcTrace := s.bcTrace ++ [⟨0x800#12, .byte s.dataAnswer⟩] } := rfl

/-- Settles O20: the answer is the one fixed, or the next free value. -/
theorem busQueriesAppendTheirAnswer : Obligations.BusQueriesAppendTheirAnswer := by
  refine ⟨fun s w h => ?_, fun s b h => ?_, fun s h => ⟨s.statusAnswer, s.draws + 1, ?_⟩,
    fun s h => ⟨s.dataAnswer, s.draws + 1, ?_⟩⟩
  · rw [exec_bcStatus, tookStatus_of_some h, State.statusAnswer, h, Option.getD_some]
  · rw [exec_bcReadData, tookData_of_some h, State.dataAnswer, h, Option.getD_some]
  · rw [exec_bcStatus, tookStatus_of_none h]
  · rw [exec_bcReadData, tookData_of_none h]

end Sys2Proof.Machine

/-!
PROOFS of the family 40_bus_controller_interface: what the commands append, how a raise is taken, and how each command moves the
controller's sequence.
-/

namespace Sys2Proof.Machine

/-! ## Commands and raises -/

/-- Settles O19: each command logs its word, as `State.sendConfigure_eq` and its fellows say. -/
theorem busCommandsAppendTheirWord : Obligations.BusCommandsAppendTheirWord := by
  rintro s i w (⟨m, rfl, rfl⟩ | ⟨rfl, rfl⟩ | ⟨a, rfl, rfl⟩ | ⟨a, rfl, rfl⟩ | ⟨rfl, rfl⟩ | ⟨rfl, rfl⟩ | ⟨b, rfl, rfl⟩)
  · exact congrArg Host.Outcome.next (State.sendConfigure_eq s m)
  · exact congrArg Host.Outcome.next (State.sendReset_eq s)
  · exact congrArg Host.Outcome.next (State.sendStartWrite_eq s a)
  · exact congrArg Host.Outcome.next (State.sendStartRead_eq s a)
  · exact congrArg Host.Outcome.next (State.sendAck_eq s)
  · exact congrArg Host.Outcome.next (State.sendMarkLast_eq s)
  · exact congrArg Host.Outcome.next (State.sendWriteData_eq s b)

/-- A raise while an event is pending replaces its answers (R197, log 18). -/
theorem raiseEvent_of_pending {s : State} (he : s.evPend = true) (w : BitVec 2) (b : Option Byte) :
    s.raiseEvent w b = { s with ansStatus := some w, ansData := b } := by
  simp [State.raiseEvent, ← he]

/-- Settles O9: a raise is taken where no handler step is due, and an early one before the handler step of the pending event. -/
theorem byteEventsRaiseAndMerge : Obligations.ByteEventsRaiseAndMerge := by
  refine ⟨fun s early w b pre rest hd hs hpre => step_of_input hd hs hpre rfl, fun s w b pre rest he hs hpre => ?_⟩
  rw [step_of_first hs hpre rfl (.inl rfl)]
  exact congrArg _ (raiseEvent_of_pending (s := { s.clearOutputs with stim := pre ++ rest }) he w b)

/-! ## How each command moves the controller's sequence -/

theorem decodeBus_of_encode {i : Instr} {w : BusWord} (hi : i.wellFormed = true) (h : encode i = .bus w) : decodeBus w = .ok i := by
  have hd := decode_encode hi
  rwa [h] at hd

@[simp] theorem Sequence.next_configure (q : Sequence) (m : Byte) : q.next (sent (0x100#12 + m.setWidth 12)) = q := by
  have hd : decodeBus (sent (0x100#12 + m.setWidth 12)).word = .ok (.bcConfigure m) :=
    decodeBus_of_encode rfl (by simp [encode, sent, busWord_eq_add])
  unfold Sequence.next
  simp only [hd]

@[simp] theorem Sequence.next_reset (q : Sequence) :
    q.next (sent 0x200#12) = if q = .writeEnded ∨ q = .ended then .ended else .quiet := rfl

@[simp] theorem Sequence.next_startWrite (q : Sequence) (a : Address) : q.next (sent (0x300#12 + a.setWidth 12)) = .write := by
  have hd : decodeBus (sent (0x300#12 + a.setWidth 12)).word = .ok (.bcStartWrite a) :=
    decodeBus_of_encode rfl (by simp [encode, sent, busWord_eq_add, addressArg_eq_setWidth])
  unfold Sequence.next
  simp only [hd]

@[simp] theorem Sequence.next_startRead (q : Sequence) (a : Address) : q.next (sent (0x400#12 + a.setWidth 12)) = .readAddress := by
  have hd : decodeBus (sent (0x400#12 + a.setWidth 12)).word = .ok (.bcStartRead a) :=
    decodeBus_of_encode rfl (by simp [encode, sent, busWord_eq_add, addressArg_eq_setWidth])
  unfold Sequence.next
  simp only [hd]

@[simp] theorem Sequence.next_ack (q : Sequence) :
    q.next (sent 0x500#12) =
      if q = .readAddressAsked then .readData else if q = .readDataAsked then .readDataAcked else q := by
  have hd : decodeBus (sent 0x500#12).word = .ok .bcAck := decodeBus_of_encode rfl rfl
  unfold Sequence.next
  simp only [hd]
  cases q <;> rfl

@[simp] theorem Sequence.next_markLast (q : Sequence) : q.next (sent 0x600#12) = if q = .write then .writeLast else q := rfl

@[simp] theorem Sequence.next_sampled (q : Sequence) (w : StatusWord) : q.next (Machine.sampled w) = q.sampled := by
  have hd : decodeBus (Machine.sampled w).word = .ok .bcStatus := decodeBus_of_encode rfl rfl
  unfold Sequence.next
  simp only [hd]

@[simp] theorem Sequence.next_received (q : Sequence) (b : Byte) :
    q.next (received b) =
      if q = .readDataAcked then .readData else if q = .readAddressAsked ∨ q = .readDataAsked then .ended else q := by
  have hd : decodeBus (received b).word = .ok .bcReadData := decodeBus_of_encode rfl rfl
  unfold Sequence.next
  simp only [hd]
  cases q <;> rfl

@[simp] theorem Sequence.next_writeData (q : Sequence) (b : Byte) :
    q.next (sent (0x900#12 + b.setWidth 12)) = if q = .writeAsked then .write else q := by
  have hd : decodeBus (sent (0x900#12 + b.setWidth 12)).word = .ok (.bcWriteData b) :=
    decodeBus_of_encode rfl (by simp [encode, sent, busWord_eq_add])
  unfold Sequence.next
  simp only [hd]

/-- A read sequence is in progress. -/
def Sequence.reads : Sequence → Bool
  | .readAddress | .readAddressAsked | .readData | .readDataAsked | .readDataAcked => true
  | .quiet | .write | .writeAsked | .writeLast | .writeEnded | .ended => false

theorem Sequence.reads_iff (q : Sequence) :
    q.reads = true ↔ q = .readAddress ∨ q = .readAddressAsked ∨ q = .readData ∨ q = .readDataAsked ∨ q = .readDataAcked := by
  cases q <;> simp [Sequence.reads]

/-- An event sampled where no sequence is in progress starts none. -/
theorem Sequence.sampled_isOver {q : Sequence} (h : q.isOver = true) : q.sampled.isOver = true := by
  revert h; cases q <;> decide

/-- Sampled, a read sequence waits for the answer to its first event or to the event of a byte. -/
theorem Sequence.sampled_of_reads {q : Sequence} (h : q.reads = true) :
    q.sampled = .readDataAsked ∨ q.sampled = .readAddressAsked := by
  revert h; cases q <;> decide

theorem Sequence.sampled_reads {q : Sequence} (h : q.reads = true) : q.sampled.reads = true := by
  rcases Sequence.sampled_of_reads h with hq | hq <;> rw [hq] <;> rfl

/-- Branch RD0 in a read sequence keeps it a read sequence, with or without the mark (R115, R116). -/
theorem Sequence.reads_of_acked {q : Sequence} (h : q.reads = true) :
    (q.sampled.next (sent 0x500#12)).reads = true := by
  rcases Sequence.sampled_of_reads h with hq | hq <;> simp [hq, Sequence.reads]

/-- Branch RD1 in a read sequence: a byte taken with its acknowledge leaves a byte to come (R115, R118). -/
theorem Sequence.acked_received {q : Sequence} (h : q.reads = true) (b : Byte) :
    (q.sampled.next (sent 0x500#12)).next (received b) = .readData := by
  rcases Sequence.sampled_of_reads h with hq | hq <;> simp [hq]

/-- Branch RD2 in a read sequence: a byte taken without acknowledge is the last (R115). -/
theorem Sequence.sampled_received {q : Sequence} (h : q.reads = true) (b : Byte) : q.sampled.next (received b) = .ended := by
  rcases Sequence.sampled_of_reads h with hq | hq <;> simp [hq]

/-- The mark is for a write sequence: any other goes on as it was (R116). -/
theorem Sequence.marked_of_ne {q : Sequence} (h : q ≠ .write) (c : Prop) [Decidable c] :
    (if c then [sent 0x600#12] else []).foldl Sequence.next q = q := by
  split <;> simp [h]

/-! ## The controller's sequence in a state -/

/-- What is appended to the trace moves the sequence on. -/
theorem sequenceOf_bcTold {s t : State} {es : List BusEntry} (hpast : t.bcPast = s.bcPast) (htrace : t.bcTrace = s.bcTrace ++ es) :
    sequenceOf t.bcTold = es.foldl Sequence.next (sequenceOf s.bcTold) := by
  rw [State.bcTold, State.bcTold, hpast, htrace, ← List.append_assoc, sequenceOf, List.foldl_append, sequenceOf]

/-- The same for a branch that ends with the mark, or without. -/
theorem sequenceOf_bcTold_mark {s t : State} {es ms : List BusEntry} (hpast : t.bcPast = s.bcPast)
    (htrace : t.bcTrace = s.bcTrace ++ es ++ ms) :
    sequenceOf t.bcTold = ms.foldl Sequence.next (es.foldl Sequence.next (sequenceOf s.bcTold)) := by
  rw [← List.foldl_append]
  exact sequenceOf_bcTold hpast (htrace.trans (List.append_assoc ..))

@[simp] theorem sequenceOf_afterSample (s : State) (w : StatusWord) :
    sequenceOf (s.afterSample w).bcTold = (sequenceOf s.bcTold).sampled := by
  rw [sequenceOf_bcTold (s := s) (t := s.afterSample w) rfl rfl, List.foldl_cons, List.foldl_nil, Sequence.next_sampled]

/-- What `sequenceInStep` asks of the sequence in each phase. -/
theorem sequenceInStep_iff (s : State) :
    sequenceInStep s = true ↔
      (s.phase = .writing → sequenceOf s.bcTold = if s.wrem = 0#8 then .writeLast else .write) ∧
      (s.phase = .reading → sequenceOf s.bcTold = .readAddress ∨ sequenceOf s.bcTold = .readData) ∧
      s.quietWhenIdle := by
  cases hp : s.phase <;> simp [sequenceInStep, hp, State.quietWhenIdle, Phase.live]

theorem inPhase_of_inStep {s : State} (h : sequenceInStep s = true) : s.InPhase := by
  obtain ⟨hw, hr, -⟩ := (sequenceInStep_iff s).1 h
  refine ⟨hw, fun hp => (Sequence.reads_iff _).1 ?_⟩
  rcases hr hp with hq | hq <;> rw [hq] <;> rfl

/-- Where no transaction is live there is no phase to be in. -/
theorem inPhase_of_not_live {s : State} (h : s.phase.live = false) : s.InPhase :=
  ⟨fun hp => absurd h (by simp [hp, Phase.live]), fun hp => absurd h (by simp [hp, Phase.live])⟩

theorem State.InPhase.reads {s : State} (h : s.InPhase) (hp : s.phase = .reading) : (sequenceOf s.bcTold).reads = true :=
  (Sequence.reads_iff _).2 (h.reading hp)

theorem inStep_of_writing {s : State} (hp : s.phase = .writing)
    (hq : sequenceOf s.bcTold = if s.wrem = 0#8 then .writeLast else .write) : sequenceInStep s = true := by
  simp [sequenceInStep, hp, hq]

theorem inStep_of_reading {s : State} (hp : s.phase = .reading)
    (hq : sequenceOf s.bcTold = .readAddress ∨ sequenceOf s.bcTold = .readData) : sequenceInStep s = true := by
  simpa [sequenceInStep, hp] using hq

theorem inStep_of_idle {s : State} (hp : s.phase = .idle) (hq : (sequenceOf s.bcTold).isOver = true) : sequenceInStep s = true := by
  simpa [sequenceInStep, hp] using hq

/-- `EngineStart` resets the controller and starts the sequence of the first phase, whatever was in progress (R130). -/
theorem accept_inStep (s : State) (d : Descriptor) : sequenceInStep (s.accept d) = true := by
  have hq := sequenceOf_bcTold (s := s) (t := s.accept d) (by rw [accept_eq]) (by rw [accept_eq])
  by_cases hw : 0 < d.wcnt.toNat
  · have hne : d.wcnt ≠ 0#8 := fun h => by simp [h] at hw
    refine inStep_of_writing (by rw [accept_eq]; exact if_pos hw) ?_
    rw [hq, accept_eq]
    simp [hw, hne]
  · refine inStep_of_reading (by rw [accept_eq]; exact if_neg hw) (.inl ?_)
    rw [hq]
    simp [hw]

end Sys2Proof.Machine

/-!
PROOFS of the family 40_bus_controller_interface: one handler step, beside the controller's sequence, and the events of a conforming
controller.
-/

namespace Sys2Proof.Machine

/-! ## The handler step -/

/-- A transaction has ended in `t` with its sequence, or `CHAIN`, registered in `s`, has started the staged descriptor of `s`. -/
def Completed (s t : State) : Prop :=
  (t.phase = .idle ∧ (sequenceOf t.bcTold = .writeEnded ∨ sequenceOf t.bcTold = .ended)) ∨
  (cplId s.cpl = 4#3 ∧ t.own = s.staged ∧ t.phase.live = true ∧ sequenceInStep t = true)

/-- `Complete()` sends nothing, unless `CHAIN` starts the staged descriptor (R139, R141). -/
theorem complete_told {k : Option Continuation} {s t : State} (h : complete k s = .next t) :
    (t.phase = .idle ∧ t.bcTold = s.bcTold) ∨ (k = some .chain ∧ t = { s with cplPulse := some 4#3 }.accept s.staged) := by
  rcases complete_eq_next h with ⟨-, rfl⟩ | ⟨-, rfl⟩ | ⟨-, r, rfl⟩ | ⟨-, r, rfl⟩ | ⟨-, r, rfl⟩ | ⟨-, -, rfl⟩ | ⟨hk, -, ht⟩
  · exact .inl ⟨rfl, rfl⟩
  · exact .inl ⟨rfl, rfl⟩
  · exact .inl ⟨rfl, rfl⟩
  · exact .inl ⟨rfl, rfl⟩
  · exact .inl ⟨rfl, rfl⟩
  · exact .inl ⟨rfl, rfl⟩
  · exact .inr ⟨hk, ht⟩

/-- A completion in `u`, where the last byte of the transaction of `s` is moved. -/
theorem completeLive_completed {s u t : State} (h : completeLive u = .next t) (hcpl : u.cpl = s.cpl) (hstaged : u.staged = s.staged)
    (hq : sequenceOf u.bcTold = .writeEnded ∨ sequenceOf u.bcTold = .ended) : Completed s t := by
  obtain ⟨k, hk, h⟩ := completeLive_eq_next h
  rcases complete_told h with ⟨hp, htold⟩ | ⟨rfl, rfl⟩
  · exact .inl ⟨hp, htold ▸ hq⟩
  · exact .inr ⟨hcpl ▸ (continuationOf_some hk).2, by rw [accept_eq]; exact hstaged, accept_live _ _, accept_inStep _ _⟩

theorem Completed.inStep {s t : State} (h : Completed s t) : sequenceInStep t = true := by
  rcases h with ⟨hp, hq⟩ | ⟨-, -, -, h⟩
  · exact inStep_of_idle hp (by rcases hq with hq | hq <;> rw [hq] <;> rfl)
  · exact h

/-- What the handler step of an event answered `w` does to the live registers and to the controller's sequence, where that is in the
phase of the live transaction: one case for each branch (R132 to R138). -/
inductive Served (w : StatusWord) (s t : State) : Prop
  /-- Consumed where no transaction is live (R138). -/
  | stray (hp : s.phase.live = false) (hl : sameLive s t) (hq : sequenceOf t.bcTold = (sequenceOf s.bcTold).sampled)
  /-- Consumed in `Reading` because the controller answered `WRITE` (R138). -/
  | misread (hp : s.phase = .reading) (hw : w.phase = .write) (hl : sameLive s t)
      (hq : sequenceOf t.bcTold = (sequenceOf s.bcTold).sampled)
  /-- Branch W1 (R133). -/
  | sentByte (hp : s.phase = .writing) (hw : 0 < s.wrem.toNat) (hl : sameLive s.movedWrite t)
      (hq : sequenceOf t.bcTold = if t.wrem = 0#8 then .writeLast else .write)
  /-- Branch W2, with bytes to read (R134). -/
  | turned (hp : s.phase = .writing) (hw : s.wrem = 0#8) (hr : 0 < s.rrem.toNat) (hl : sameLive s.turnedToRead t)
      (hq : sequenceOf t.bcTold = .readAddress)
  /-- Branch RD0 (R135). -/
  | primed (hp : s.phase = .reading) (hw : w = statusUnprimed) (hl : sameLive s t) (hq : (sequenceOf t.bcTold).reads = true)
      (hfirst : sequenceOf s.bcTold = .readAddress → sequenceOf t.bcTold = .readData)
  /-- Branch RD1 (R136). -/
  | receivedByte (hp : s.phase = .reading) (hw : w = statusFull) (hr : 1 < s.rrem.toNat) (hl : sameLive s.movedRead t)
      (hq : sequenceOf t.bcTold = .readData)
  /-- Branch W2 with nothing to read, or RD2 (R134, R137). -/
  | completed (hp : (s.phase = .writing ∧ s.wrem = 0#8 ∧ s.rrem = 0#8) ∨ (s.phase = .reading ∧ w = statusFull ∧ s.rrem = 1#8))
      (h : Completed s t)

/-- Where the invariant holds, an event that enables no branch finds no live transaction, or answers `WRITE` in `Reading` (R138). -/
theorem consumed_cases {s : State} {w : StatusWord} (hs : s.Inv)
    (h : s.phase = .idle ∨ s.phase = .complete ∨ (s.phase = .writing ∧ s.wrem = 0#8 ∧ s.tail = false) ∨
      (s.phase = .reading ∧ (w.phase = .write ∨ s.rrem = 0#8))) :
    s.phase.live = false ∨ (s.phase = .reading ∧ w.phase = .write) := by
  rcases h with hp | hp | ⟨hp, -, htail⟩ | ⟨hp, hw | hr⟩
  · exact .inl (hp ▸ rfl)
  · exact .inl (hp ▸ rfl)
  · exact absurd (hs.writing hp) (by simp [htail])
  · exact .inr ⟨hp, hw⟩
  · exact absurd (hs.reading hp).2 (by simp [hr])

theorem busEvent_served {s t : State} {w : StatusWord} (hs : s.Inv) (hi : s.InPhase) (h : exec (.busEvent w) s = .next t) :
    Served w s t := by
  have hpast : t.bcPast = s.bcPast := (busEvent_effect h).lasting.bcPast
  obtain ⟨-, ⟨rfl, hp⟩ | ⟨hp, hw, h⟩ | ⟨hp, hw, -, hr, ht⟩ | ⟨hp, hw, -, hr, h⟩ | ⟨hp, hw, h⟩ | ⟨hp, hw, hr, h⟩ |
    ⟨hp, hw, hr, h⟩⟩ := execBusEvent_eq_next h
  · rcases consumed_cases hs hp with hp | ⟨hp, hw⟩
    · exact .stray hp (.refl s) (sequenceOf_afterSample s w)
    · exact .misread hp hw (.refl s) (sequenceOf_afterSample s w)
  · obtain ⟨b, -, ht⟩ := branchW1_eq_next h
    have hne : s.wrem ≠ 0#8 := fun h => by simp [h] at hw
    have hwt : t.wrem = s.wrem - 1#8 := congrArg State.wrem ht
    refine .sentByte hp hw (ht ▸ .refl s.movedWrite) ?_
    rw [sequenceOf_bcTold_mark (s := s.afterSample w) hpast (congrArg State.bcTrace ht),
      sequenceOf_afterSample, hi.writing hp, if_neg hne, hwt]
    change _ = if (s.afterSample w).wrem - 1#8 = 0#8 then Sequence.writeLast else Sequence.write
    split <;> simp [Sequence.sampled]
  · refine .turned hp hw hr (ht ▸ .refl s.turnedToRead) ?_
    rw [sequenceOf_bcTold hpast (congrArg State.bcTrace ht)]
    exact Sequence.next_startRead ..
  · refine .completed (.inl ⟨hp, hw, hr⟩) (completeLive_completed h rfl rfl (.inl ?_))
    change sequenceOf (s.afterSample w).bcTold = _
    rw [sequenceOf_afterSample, hi.writing hp, if_pos hw]
    rfl
  · rw [branchRD0_eq] at h
    injection h with ht
    have hrd := Sequence.reads_of_acked (hi.reads hp)
    have hq : sequenceOf t.bcTold = (sequenceOf s.bcTold).sampled.next (sent 0x500#12) := by
      rw [sequenceOf_bcTold_mark (s := s.afterSample w) hpast (congrArg State.bcTrace ht.symm),
        sequenceOf_afterSample, List.foldl_cons, List.foldl_nil]
      exact Sequence.marked_of_ne (fun h => by rw [h] at hrd; cases hrd) _
    exact .primed hp hw (ht ▸ .refl s) (hq ▸ hrd) fun h0 => by rw [hq, h0]; rfl
  · rw [branchRD1_eq] at h
    injection h with ht
    refine .receivedByte hp hw hr (ht ▸ .refl s.movedRead) ?_
    rw [sequenceOf_bcTold_mark (s := s.afterSample w) hpast (congrArg State.bcTrace ht.symm),
      sequenceOf_afterSample, List.foldl_cons, List.foldl_cons, List.foldl_nil, Sequence.acked_received (hi.reads hp)]
    exact Sequence.marked_of_ne (by decide) _
  · rw [branchRD2_eq] at h
    refine .completed (.inr ⟨hp, hw, hr⟩) (completeLive_completed h rfl rfl (.inr ?_))
    refine (sequenceOf_bcTold (s := s.afterSample w) (es := [received (s.afterSample w).dataAnswer]) ?_ ?_).trans ?_
    · rfl
    · rfl
    · rw [sequenceOf_afterSample]
      exact Sequence.sampled_received (hi.reads hp) _

/-- The pending bit itself says nothing of the transaction: the same of a state in which the event has just been raised. -/
theorem busEvent_served_of_raised {s t : State} {w : StatusWord} (hs : s.Inv) (hi : s.InPhase)
    (h : exec (.busEvent w) { s with evPend := true } = .next t) : Served w s t := by
  have hserved := busEvent_served (s := { s with evPend := true }) (hs.of_sameLive (.refl s) { }) ⟨hi.writing, hi.reading⟩ h
  cases hserved with
  | stray hp hl hq => exact .stray hp hl hq
  | misread hp hw hl hq => exact .misread hp hw hl hq
  | sentByte hp hw hl hq => exact .sentByte hp hw hl hq
  | turned hp hw hr hl hq => exact .turned hp hw hr hl hq
  | primed hp hw hl hq hfirst => exact .primed hp hw hl hq hfirst
  | receivedByte hp hw hr hl hq => exact .receivedByte hp hw hr hl hq
  | completed hp hc => exact .completed hp hc

/-! ## Conforming events -/

/-- In a read sequence the first event conforms only unprimed, and any other only with a byte (R124, R125). -/
theorem conforming_reading {s : State} {w : StatusWord} (hp : s.phase = .reading) (hstep : sequenceInStep s = true)
    (hc : conformingEvent s w = true) :
    (w = statusUnprimed ∧ sequenceOf s.bcTold = .readAddress) ∨ (w = statusFull ∧ sequenceOf s.bcTold = .readData) := by
  simp only [conformingEvent, Bool.and_eq_true] at hc
  obtain ⟨⟨⟨⟨-, hprime⟩, hdata⟩, -⟩, -⟩ := hc
  obtain ⟨-, hread, -⟩ := (sequenceInStep_iff s).1 hstep
  rcases hread hp with hq | hq
  · exact .inl ⟨by simpa [bcReadPrime, hq, statusUnprimed] using hprime, hq⟩
  · exact .inr ⟨by simpa [bcReadData, hq, statusFull] using hdata, hq⟩

/-- A conforming event that reports a byte comes after the first. -/
theorem readData_of_full {s : State} (hp : s.phase = .reading) (hstep : sequenceInStep s = true)
    (hc : conformingEvent s statusFull = true) : sequenceOf s.bcTold = .readData :=
  ((conforming_reading hp hstep hc).resolve_left (fun h => by cases h.1)).2

/-- A conforming event with no byte is the first. -/
theorem readAddress_of_unprimed {s : State} (hp : s.phase = .reading) (hstep : sequenceInStep s = true)
    (hc : conformingEvent s statusUnprimed = true) : sequenceOf s.bcTold = .readAddress :=
  ((conforming_reading hp hstep hc).resolve_right (fun h => by cases h.1)).2

theorem eventsOwed_writing {s : State} (hp : s.phase = .writing) :
    s.eventsOwed = s.wrem.toNat + 1 + (if 0 < s.rrem.toNat then s.rrem.toNat + 1 else 0) := by
  simp [State.eventsOwed, hp]

theorem eventsOwed_readAddress {s : State} (hp : s.phase = .reading) (hq : sequenceOf s.bcTold = .readAddress) :
    s.eventsOwed = s.rrem.toNat + 1 := by
  simp [State.eventsOwed, hp, hq]

theorem eventsOwed_readData {s : State} (hp : s.phase = .reading) (hq : sequenceOf s.bcTold = .readData) :
    s.eventsOwed = s.rrem.toNat := by
  simp [State.eventsOwed, hp, hq]

/-- One event of a transaction that goes on: the same transaction, one event nearer its end, still in step. -/
structure Advanced (s t : State) : Prop where
  own : t.own = s.own
  live : t.phase.live = true
  inStep : sequenceInStep t = true
  owed : t.eventsOwed + 1 = s.eventsOwed
  more : 1 < s.eventsOwed

/-- A conforming event brings the transaction one event nearer its end, and the last one owed completes it (R145). -/
theorem Served.advanced_or_completed {s t : State} {w : StatusWord} (h : Served w s t) (hs : s.Inv) (hl : s.phase.live = true)
    (hstep : sequenceInStep s = true) (hc : conformingEvent s w = true) :
    Advanced s t ∨ (s.eventsOwed = 1 ∧ Completed s t) := by
  cases h with
  | stray hp hlive hq => rw [hl] at hp; cases hp
  | misread hp hw hlive hq => rcases conforming_reading hp hstep hc with ⟨rfl, -⟩ | ⟨rfl, -⟩ <;> cases hw
  | sentByte hp hw hlive hq =>
    obtain ⟨-, -, hwrem, -, hrrem, -, hphase, -, hown⟩ := hlive
    have hpt : t.phase = .writing := hphase.trans hp
    have hdec : t.wrem.toNat + 1 = s.wrem.toNat := hwrem ▸ toNat_sub_one_add_one hw
    have howed := eventsOwed_writing hp
    have howed' : t.eventsOwed = t.wrem.toNat + 1 + (if 0 < s.rrem.toNat then s.rrem.toNat + 1 else 0) :=
      hrrem ▸ eventsOwed_writing hpt
    exact .inl ⟨hown, hpt ▸ rfl, inStep_of_writing hpt hq, by omega, by omega⟩
  | turned hp hw hr hlive hq =>
    obtain ⟨-, -, -, -, hrrem, -, hphase, -, hown⟩ := hlive
    have howed : s.eventsOwed = 1 + (s.rrem.toNat + 1) := by rw [eventsOwed_writing hp, hw, if_pos hr]; rfl
    have howed' : t.eventsOwed = s.rrem.toNat + 1 := hrrem ▸ eventsOwed_readAddress hphase hq
    exact .inl ⟨hown, hphase ▸ rfl, inStep_of_reading hphase (.inl hq), by omega, by omega⟩
  | primed hp hw hlive hq hfirst =>
    obtain ⟨-, -, -, -, hrrem, -, hphase, -, hown⟩ := hlive
    have hpt : t.phase = .reading := hphase.trans hp
    subst hw
    have hq0 := readAddress_of_unprimed hp hstep hc
    have hone := (hs.reading hp).2
    have howed := eventsOwed_readAddress hp hq0
    have howed' : t.eventsOwed = s.rrem.toNat := hrrem ▸ eventsOwed_readData hpt (hfirst hq0)
    exact .inl ⟨hown, hpt ▸ rfl, inStep_of_reading hpt (.inr (hfirst hq0)), by omega, by omega⟩
  | receivedByte hp hw hr hlive hq =>
    obtain ⟨-, -, -, -, hrrem, -, hphase, -, hown⟩ := hlive
    have hpt : t.phase = .reading := hphase.trans hp
    have hdec : t.rrem.toNat + 1 = s.rrem.toNat := hrrem ▸ toNat_sub_one_add_one (by omega)
    have howed := eventsOwed_readData hp (readData_of_full hp hstep (hw ▸ hc))
    have howed' := eventsOwed_readData hpt hq
    exact .inl ⟨hown, hpt ▸ rfl, inStep_of_reading hpt (.inr hq), by omega, by omega⟩
  | completed hp h =>
    refine .inr ⟨?_, h⟩
    rcases hp with ⟨hp, hw, hr⟩ | ⟨hp, hw, hr⟩
    · rw [eventsOwed_writing hp, hw, hr]
      rfl
    · rw [eventsOwed_readData hp (readData_of_full hp hstep (hw ▸ hc)), hr]
      rfl

/-- Settles O57: a conforming event enables the branch that its sequence calls for, by `Served.advanced_or_completed`. -/
theorem conformingEventAdvances : Obligations.ConformingEventAdvances := by
  intro s t w hs hl hstep hc h
  have hserved := busEvent_served_of_raised hs (inPhase_of_inStep hstep) h
  rcases hserved.advanced_or_completed hs hl hstep hc with ha | ⟨hone, hdone⟩
  · exact ⟨ha.inStep, fun _ => ⟨ha.own, ha.live, ha.owed⟩, fun hle => absurd ha.more (by omega)⟩
  · refine ⟨hdone.inStep, fun hlt => absurd hlt (by omega), fun _ => ?_⟩
    rcases hdone with ⟨hidle, -⟩ | ⟨hid, hown, -⟩
    · exact .inl hidle
    · exact .inr ⟨hid, hown⟩

end Sys2Proof.Machine

/-!
PROOFS of the family 40_bus_controller_interface: every step, beside the controller's sequence.
-/

namespace Sys2Proof.Machine

/-! ## What a step does to the sequence -/

/-- What an instruction or a step does to the phase and the controller's sequence. -/
inductive SequenceEffect (s t : State) : Prop
  /-- Nothing. -/
  | kept (hp : t.phase = s.phase) (hw : t.wrem = s.wrem) (hq : sequenceOf t.bcTold = sequenceOf s.bcTold)
  /-- No transaction was live, and none is. -/
  | notLive (hs : s.phase.live = false) (ht : t.phase.live = false)
      (hq : (sequenceOf s.bcTold).isOver = true → (sequenceOf t.bcTold).isOver = true)
  /-- A read sequence is in progress in `Reading`. -/
  | reads (hp : t.phase = .reading) (hq : (sequenceOf t.bcTold).reads = true)
  /-- They are in step after it, and if it ended a transaction the sequence came to its end. -/
  | inStep (hq : sequenceInStep t = true) (hend : t.phase.live = false → bcEnd t = false)

/-- An effect begins from any state with the same phase and sequence. -/
theorem SequenceEffect.after {s u t : State} (h : SequenceEffect u t) (hp : u.phase = s.phase) (hw : u.wrem = s.wrem)
    (hq : u.bcTold = s.bcTold) : SequenceEffect s t := by
  cases h with
  | kept hp' hw' hq' => exact .kept (hp'.trans hp) (hw'.trans hw) (hq ▸ hq')
  | notLive hs ht hq' => exact .notLive (hp ▸ hs) ht (hq ▸ hq')
  | reads hp' hq' => exact .reads hp' hq'
  | inStep hq' hend => exact .inStep hq' hend

theorem SequenceEffect.inPhase {s t : State} (h : SequenceEffect s t) (hi : s.InPhase) : t.InPhase := by
  cases h with
  | kept hp hw hq =>
    constructor
    · rw [hp, hw, hq]
      exact hi.writing
    · rw [hp, hq]
      exact hi.reading
  | notLive hs ht hq => exact inPhase_of_not_live ht
  | reads hp hq => exact ⟨(fun h => by cases hp.symm.trans h), fun _ => (Sequence.reads_iff _).1 hq⟩
  | inStep hq hend => exact inPhase_of_inStep hq

theorem SequenceEffect.quietWhenIdle {s t : State} (h : SequenceEffect s t) (hi : s.quietWhenIdle) : t.quietWhenIdle := by
  intro hl
  cases h with
  | kept hp hw hq => rw [hp] at hl; rw [hq]; exact hi hl
  | notLive hs ht hq => exact hq (hi hs)
  | reads hp hq => rw [hp] at hl; cases hl
  | inStep hq hend =>
    obtain ⟨-, -, hquiet⟩ := (sequenceInStep_iff t).1 hq
    exact hquiet hl

/-- After the step that ends a transaction `BC_End` admits no event (R126). -/
theorem SequenceEffect.bcEnd {s t : State} (h : SequenceEffect s t) (hs : s.phase.live = true) (ht : t.phase.live = false) :
    bcEnd t = false := by
  cases h with
  | kept hp hw hq => rw [hp, hs] at ht; cases ht
  | notLive hs' _ _ => rw [hs] at hs'; cases hs'
  | reads hp hq => rw [hp] at ht; cases ht
  | inStep hq hend => exact hend ht

/-- A start that is admitted. -/
theorem accept_sequence (s u : State) (d : Descriptor) : SequenceEffect s (u.accept d) :=
  .inStep (accept_inStep u d) fun hl => by rw [accept_live] at hl; cases hl

theorem engineStart_sequence (d : Descriptor) (s : State) : SequenceEffect s (engineStart d s).2 := by
  rcases engineStart_cases d s with ⟨-, h⟩ | ⟨-, -, h⟩ | ⟨-, -, h⟩ <;> rw [h]
  · exact .kept rfl rfl rfl
  · exact .kept rfl rfl rfl
  · exact accept_sequence s s d

theorem protoStart_sequence (bytes : List Byte) (rcnt : Byte) (c : BitVec 4) (s : State) :
    SequenceEffect s (protoStart bytes rcnt c s).2 := by
  unfold protoStart
  split
  · exact .kept rfl rfl rfl
  · exact (engineStart_sequence _ _).after rfl rfl rfl

theorem pointerThenDelay_sequence (ptr : Byte) (q : Sequencer) (s : State) : SequenceEffect s (pointerThenDelay ptr q s) := by
  rcases pointerThenDelay_cases ptr q s with ⟨-, h⟩ | ⟨-, h⟩ <;> rw [h]
  · exact .kept rfl rfl rfl
  · rw [startDelay_accept]
    exact accept_sequence s _ _

theorem sendConfigure_sequence (s : State) (mode : Byte) : SequenceEffect s (s.sendConfigure mode) := by
  rw [State.sendConfigure_eq]
  refine .kept rfl rfl ?_
  rw [sequenceOf_bcTold (s := s) (t := s.log _) rfl rfl]
  exact Sequence.next_configure ..

theorem foreground_sequence {s t u : State} (hu : SequenceEffect s u) (h : foreground s u = .next t) : SequenceEffect s t :=
  (foreground_eq_next h).2 ▸ hu

/-- A host command forwards a mode or starts a transaction (R82). -/
theorem hostCommand_sequence {w : HostWord} {i : Instr} {s t : State} (hd : decode (.host w) = .ok i) (h : exec i s = .next t) :
    SequenceEffect s t := by
  have henc := encode_of_decode hd
  cases i with
  | configure mode => exact foreground_sequence (sendConfigure_sequence s mode) h
  | start => exact foreground_sequence (engineStart_sequence _ s) h
  | powerUp => exact foreground_sequence (protoStart_sequence _ _ _ s) h
  | powerDown => exact foreground_sequence (protoStart_sequence _ _ _ s) h
  | startConv => exact foreground_sequence (protoStart_sequence _ _ _ s) h
  | readMeas => exact foreground_sequence (pointerThenDelay_sequence _ _ s) h
  | readLimit which => exact foreground_sequence (pointerThenDelay_sequence _ _ s) h
  | writeLimit which v => exact foreground_sequence (protoStart_sequence _ _ _ s) h
  | _ => cases henc

theorem delayDone_sequence {s t : State} (h : exec .delayDone s = .next t) : SequenceEffect s t := by
  simp only [exec, execDelayDone] at h
  split at h
  · cases h
  · injection h with h
    exact h ▸ (protoStart_sequence _ _ _ s.endDelay).after rfl rfl rfl

theorem hostAccess_sequence {op : HostOp} {s t : State} (h : hostAccess op s = .next t) : SequenceEffect s t := by
  obtain ⟨⟨-, -, hw, -, -, -, hp, -, -⟩, -, -, -, -, htrace, hpast, -⟩ := hostAccessFrame s t op h
  exact .kept hp hw (by rw [State.bcTold, State.bcTold, htrace, hpast])

/-- A completion on its own, in `Complete`, where no sequence is in progress (R139, log 10). -/
theorem complete_sequence {k : Option Continuation} {s t : State} (hp : s.phase = .complete) (h : complete k s = .next t) :
    SequenceEffect s t := by
  rcases complete_told h with ⟨hidle, htold⟩ | ⟨-, rfl⟩
  · exact .notLive (by rw [hp]; rfl) (by rw [hidle]; rfl) (by rw [htold]; exact id)
  · exact accept_sequence _ _ _

/-- After a completion `BC_End` admits no event, unless `CHAIN` started a transaction (R126). -/
theorem Completed.bcEnd {s t : State} (h : Completed s t) (ht : t.phase.live = false) : bcEnd t = false := by
  rcases h with ⟨-, hq⟩ | ⟨-, -, hl, -⟩
  · rcases hq with hq | hq <;> simp [Machine.bcEnd, ht, hq]
  · rw [hl] at ht; cases ht

theorem Served.sequence {s t : State} {w : StatusWord} (h : Served w s t) (hi : s.InPhase) : SequenceEffect s t := by
  cases h with
  | stray hp hl hq =>
    obtain ⟨-, -, -, -, -, -, hphase, -, -⟩ := hl
    exact .notLive hp (hphase ▸ hp) fun hover => hq ▸ Sequence.sampled_isOver hover
  | misread hp hw hl hq =>
    obtain ⟨-, -, -, -, -, -, hphase, -, -⟩ := hl
    exact .reads (hphase.trans hp) (hq ▸ Sequence.sampled_reads (hi.reads hp))
  | sentByte hp hw hl hq =>
    obtain ⟨-, -, -, -, -, -, hphase, -, -⟩ := hl
    exact .inStep (inStep_of_writing (hphase.trans hp) hq) fun ht => by rw [hphase.trans hp] at ht; cases ht
  | turned hp hw hr hl hq =>
    obtain ⟨-, -, -, -, -, -, hphase, -, -⟩ := hl
    exact .reads hphase (hq ▸ rfl)
  | primed hp hw hl hq hfirst =>
    obtain ⟨-, -, -, -, -, -, hphase, -, -⟩ := hl
    exact .reads (hphase.trans hp) hq
  | receivedByte hp hw hr hl hq =>
    obtain ⟨-, -, -, -, -, -, hphase, -, -⟩ := hl
    exact .reads (hphase.trans hp) (hq ▸ rfl)
  | completed hp h => exact .inStep h.inStep h.bcEnd

/-- Taking an input that is no reset and no lone controller command. -/
theorem deliver_sequence {x : Stimulus} {s t : State} (hr : x ≠ .reset) (hb : ∀ w, x ≠ .busCommand w)
    (h : (deliver x s).outcome = .next t) : SequenceEffect s t := by
  rcases deliver_eq_next h with ⟨w, i, -, hd, h⟩ | ⟨w, e, -, -, rfl⟩ | ⟨-, rfl⟩ | ⟨op, -, -, -, h⟩ | ⟨-, h⟩ | ⟨e, w, b, -, rfl⟩ |
    ⟨hx, -⟩ | ⟨w, i, hx, -, -⟩
  · exact hostCommand_sequence hd h
  · exact .kept rfl rfl rfl
  · exact .kept rfl rfl rfl
  · exact hostAccess_sequence h
  · exact delayDone_sequence h
  · exact .kept rfl rfl rfl
  · exact absurd hx hr
  · exact absurd hx (hb w)

/-- The input a step takes comes first. -/
theorem comesFirst_of_pick {s : State} {x : Stimulus} {rest : List Stimulus} (h : pick s.clearOutputs = some (x, rest)) :
    comesFirst s x := by
  obtain ⟨-, pre, post, hs, -, hpre⟩ := takeFirst_eq_some h
  exact ⟨pre, post, hs, fun y hy => (inputWaits_iff s y).2 (hpre y hy)⟩

/-- Every step but one that runs a lone controller command moves the sequence with the phase, or takes a reset. -/
theorem step_sequence {s t : State} (hs : s.Inv) (hi : s.InPhase)
    (hb : s.handlerDue = true ∨ ∀ w, ¬ comesFirst s (.busCommand w)) (h : step s = .next t) :
    SequenceEffect s t ∨ (comesFirst s .reset ∧ t.phase = .idle) := by
  rcases step_eq_next h with rfl | ⟨hp, i, hd, h⟩ | ⟨-, -, h⟩ | ⟨x, rest, hx, hpre, h⟩
  · exact .inl (.kept rfl rfl rfl)
  · obtain ⟨k, -, hk⟩ := exec_of_decode_completion hd
    rw [hk s.clearOutputs hp] at h
    exact .inl ((complete_sequence (s := s.clearOutputs) hp h).after rfl rfl rfl)
  · have hinv : s.clearOutputs.tookStatus.Inv := hs.of_sameLive (.refl s) { }
    have hphase : s.clearOutputs.tookStatus.InPhase := ⟨hi.writing, hi.reading⟩
    exact .inl (((busEvent_served hinv hphase h).sequence hphase).after rfl rfl rfl)
  · have hfirst := comesFirst_of_pick hx
    by_cases hr : x = .reset
    · subst hr
      injection h with h
      exact .inr ⟨hfirst, h ▸ rfl⟩
    · refine .inl ((deliver_sequence hr (fun w hw => ?_) h).after rfl rfl rfl)
      subst hw
      have hdue : s.handlerDue = false := hpre.resolve_left Bool.false_ne_true
      exact hb.elim (fun h => by rw [hdue] at h; cases h) fun h => h w hfirst

/-- Settles O56: each step has a `SequenceEffect` or takes a reset, and each of them keeps the sequence in phase. -/
theorem quietControllerIsSilentInIdle : Obligations.QuietControllerIsSilentInIdle := by
  refine ⟨fun s t hs hi hb h => ?_, fun s t hs hi hquiet hb hr h => ?_, ⟨?_, fun _ => rfl⟩, fun s hquiet hl => ?_⟩
  · rcases step_sequence hs hi hb h with he | ⟨-, hidle⟩
    · exact he.inPhase hi
    · exact inPhase_of_not_live (by rw [hidle]; rfl)
  · have he := (step_sequence hs hi hb h).resolve_right fun h => hr h.1
    exact ⟨he.quietWhenIdle hquiet, he.bcEnd⟩
  · exact inPhase_of_not_live rfl
  · rw [bcQuiet, hquiet hl]
    rfl

end Sys2Proof.Machine

/-!
PROOFS of the family 41_transaction_engine: starts, completions and each branch of a handler step, as whole next states.
-/

namespace Sys2Proof.Machine

/-! ## `START` -/

/-- `START` with no transaction live: the staged descriptor is admitted unless it is bad (R130, R131). -/
theorem exec_start {s : State} (hl : s.phase.live = false) (hq : s.seq = .ready) :
    exec .start s = .next (if badDesc s.staged then s.flagBadDesc else s.accept s.staged) := by
  rw [exec, execStart, foreground, if_pos hq]
  rcases engineStart_cases s.staged s with ⟨h, -⟩ | ⟨-, hd, h⟩ | ⟨-, hd, h⟩
  · rw [hl] at h; cases h
  · rw [h, if_pos hd]; rfl
  · rw [h, hd]; rfl

/-- Settles O13: each of the four defects makes the staged descriptor bad. -/
theorem startRefusesBadDescriptor : Obligations.StartRefusesBadDescriptor := by
  intro s hl hq hdefect
  have hbad : badDesc s.staged = true := by
    by_contra hgood
    obtain ⟨hcnt, hw, hr, hc⟩ := (badDesc_eq_false_iff s.staged).1 (Bool.eq_false_iff.2 hgood)
    rcases hdefect with h | ⟨h, hlt⟩ | ⟨h, hlt⟩ | ⟨h, hlt⟩
    · exact hcnt h
    · exact (hw h).not_gt hlt
    · exact (hr h).not_gt hlt
    · exact ((cplBad_eq_false_iff _).1 hc h).not_gt hlt
  rw [exec_start hl hq, if_pos hbad]
  rfl

/-- Settles O14: without the four defects the staged descriptor is not bad, and `accept_eq` is what its start does. -/
theorem startStoresAndStarts : Obligations.StartStoresAndStarts := by
  intro s hl hq hcnt hw hr hc
  have hgood : badDesc s.staged = false := (badDesc_eq_false_iff s.staged).2 ⟨hcnt, hw, hr, (cplBad_eq_false_iff _).2 hc⟩
  rw [exec_start hl hq, if_neg (by simp [hgood]), accept_eq]
  rfl

/-! ## Completions, forward -/

/-- In `Complete` a completion instruction runs `Complete()` (R139). -/
theorem completing_of_complete {s : State} (hp : s.phase = .complete) (k : Option Continuation) : completing k s = complete k s :=
  if_pos hp

theorem complete_none (s : State) : complete none s = .next { s with phase := .idle, cpl := 0#4, tail := false } := rfl

theorem complete_notify (s : State) :
    complete (some .notify) s = .next { s with phase := .idle, cpl := 0#4, tail := false, cplPulse := some 0#3 } := rfl

/-- Settles O29: neither continuation touches a register, and the retire follows. -/
theorem plainCompletionsRetire : Obligations.PlainCompletionsRetire := fun s hp =>
  ⟨fun _ => (completing_of_complete hp none).trans (complete_none s),
    (completing_of_complete hp (some .notify)).trans (complete_notify s)⟩

/-- `CHAIN`: the whole next state (R141). -/
theorem complete_chain (s : State) :
    complete (some .chain) s = .next (if badDesc s.staged
      then { s with errBadDesc := true, phase := .idle, cpl := 0#4, tail := false, cplPulse := some 4#3 }
      else { s with cplPulse := some 4#3 }.accept s.staged) := by
  obtain ⟨t, h⟩ : ∃ t, complete (some .chain) s = .next t := ⟨_, rfl⟩
  rw [h]
  rcases complete_eq_next h with ⟨hk, -⟩ | ⟨hk, -⟩ | ⟨hk, -⟩ | ⟨hk, -⟩ | ⟨hk, -⟩ | ⟨-, hd, rfl⟩ | ⟨-, hd, rfl⟩
  · cases hk
  · cases hk
  · cases hk
  · cases hk
  · cases hk
  · rw [if_pos hd]
  · rw [hd]; rfl

/-- Settles O31, by `complete_chain`. -/
theorem chainStartsTheStagedDescriptor : Obligations.ChainStartsTheStagedDescriptor := by
  intro s hp
  have h : exec .cplChain s = _ := (completing_of_complete hp (some .chain)).trans (complete_chain s)
  refine ⟨fun hbad => ?_, fun hgood => ?_⟩
  · rw [h, if_pos hbad]
  · rw [h, hgood, if_neg Bool.false_ne_true, accept_eq]
    rfl

theorem completeLive_of_ok {s : State} {k : Option Continuation} (h : continuationOf s.cpl = .ok k) :
    completeLive s = complete k s := by
  rw [completeLive, h]

/-- `Complete()` with the live `CPL` is the completion that `CPL` decodes to, run in `Complete` (R139). -/
theorem completeLive_eq_exec {s : State} {i : Instr} (h : decode (.completion s.cpl) = .ok i) :
    completeLive s = exec i { s with phase := .complete } := by
  obtain ⟨k, hk, hexec⟩ := exec_of_decode_completion h
  rw [hexec _ rfl, complete_of_phase, completeLive_of_ok hk]

/-! ## The branches of a handler step -/

/-- A handler step in branch W2 with bytes to read (R134). -/
theorem exec_busEvent_W2_read {s : State} {w : StatusWord} (he : s.evPend = true) (hp : s.phase = .writing) (hw : s.wrem = 0#8)
    (ht : s.tail = true) (hr : 0 < s.rrem.toNat) :
    exec (.busEvent w) s = .next { s with
      evPend := false
      tail := false
      phase := .reading
      bcTrace := s.bcTrace ++ [sampled w, sent (0x400#12 + s.taddr.setWidth 12)] } := by
  rw [exec_busEvent he]
  simp [dispatchEvent, State.afterSample, hp, hw, ht, branchW2, hr, State.log]

/-- A handler step in branch W2 with nothing to read completes (R134). -/
theorem exec_busEvent_W2_done {s : State} {w : StatusWord} (he : s.evPend = true) (hp : s.phase = .writing) (hw : s.wrem = 0#8)
    (ht : s.tail = true) (hr : s.rrem = 0#8) :
    exec (.busEvent w) s = completeLive { s.afterSample w with tail := false } := by
  rw [exec_busEvent he]
  simp [dispatchEvent, State.afterSample, hp, hw, ht, branchW2, hr]

/-- A handler step that reports a byte, with more than one to receive, is branch RD1 (R136). -/
theorem exec_busEvent_full_more {s : State} (he : s.evPend = true) (hp : s.phase = .reading) (hr : 1 < s.rrem.toNat) :
    exec (.busEvent statusFull) s = branchRD1 (s.afterSample statusFull) := by
  rw [exec_busEvent he]
  simp [dispatchEvent, State.afterSample, hp, hr, statusFull]

/-- The last byte stored, before the completion: the whole state in which branch RD2 completes (R137). -/
def State.lastByte (s : State) : State :=
  { s with
    evPend := false
    rrem := 0#8
    rptr := s.rptr + 1#8
    rxbuf := Memory.write s.rptr.toNat s.dataAnswer s.rxbuf
    ansData := none
    draws := s.tookData.draws
    bcTrace := s.bcTrace ++ [sampled statusFull, received s.dataAnswer] }

/-- A handler step that reports the last byte is branch RD2 (R137). -/
theorem exec_busEvent_full_last {s : State} (he : s.evPend = true) (hp : s.phase = .reading) (hr : s.rrem = 1#8) :
    exec (.busEvent statusFull) s = completeLive s.lastByte := by
  have hbranch : dispatchEvent statusFull (s.afterSample statusFull) = branchRD2 (s.afterSample statusFull) := by
    simp [dispatchEvent, State.afterSample, hp, hr, statusFull]
  rw [exec_busEvent he, hbranch, branchRD2_eq]
  simp only [State.afterSample, List.append_assoc, List.cons_append, List.nil_append]
  rfl

/-- Settles O21: branch W1. -/
theorem writeEventSendsOneByte : Obligations.WriteEventSendsOneByte := by
  intro s w b he hp hw hb
  rw [exec_busEvent_W1 he hp hw hb, State.sentByte]
  simp only [sub_eq_iff_eq_add, BitVec.zero_add]

/-- Settles O22: branch W2, with bytes to read and without. -/
theorem exhaustedWriteReadsOrCompletes : Obligations.ExhaustedWriteReadsOrCompletes := by
  intro s w he hp hw ht
  refine ⟨exec_busEvent_W2_read he hp hw ht, fun hr i hi => ?_⟩
  exact (exec_busEvent_W2_done he hp hw ht hr).trans (completeLive_eq_exec (s := { s.afterSample w with tail := false }) hi)

/-- Settles O23: branch RD0. -/
theorem unprimedReadAcknowledges : Obligations.UnprimedReadAcknowledges := fun _ => exec_busEvent_RD0

/-- An answer that an input fixed is the one given (R118). -/
theorem dataAnswer_of_some {s : State} {b : Byte} (h : s.ansData = some b) : s.dataAnswer = b := by
  rw [State.dataAnswer, h, Option.getD_some]

/-- Settles O24: branch RD1. -/
theorem readEventStoresOneByte : Obligations.ReadEventStoresOneByte := by
  intro s he hp hr
  refine ⟨s.dataAnswer, Memory.write s.rptr.toNat s.dataAnswer s.rxbuf, s.tookData.draws, fun c => dataAnswer_of_some,
    fun a => Memory.read_write .., ?_⟩
  rw [exec_busEvent_full_more he hp hr, branchRD1_eq]
  simp only [sub_eq_iff_eq_add, State.afterSample, List.append_assoc, List.cons_append, List.nil_append]
  rfl

/-- Settles O25: branch RD2. -/
theorem lastReadEventCompletes : Obligations.LastReadEventCompletes := by
  intro s he hp hr
  refine ⟨s.dataAnswer, Memory.write s.rptr.toNat s.dataAnswer s.rxbuf, s.tookData.draws, fun c => dataAnswer_of_some,
    fun a => Memory.read_write .., fun i hi => ?_⟩
  exact (exec_busEvent_full_last he hp hr).trans (completeLive_eq_exec (s := s.lastByte) hi)

/-- Settles O27: in each case the dispatch finds no enabled branch. -/
theorem unmatchedEventIsConsumed : Obligations.UnmatchedEventIsConsumed := by
  rintro s w he (hp | ⟨hp, hw⟩ | ⟨hp, hw, ht⟩ | ⟨hp, hw, hf, hr⟩) <;> rw [exec_busEvent he]
  · simp [dispatchEvent, State.afterSample, hp]
  · simp [dispatchEvent, State.afterSample, hp, hw]
  · simp [dispatchEvent, State.afterSample, hp, hw, ht]
  · simp [dispatchEvent, State.afterSample, hp, hw, hf, hr]

/-! ## A decode at the end of a read -/

/-- The temperature decode with a value in both bytes: the whole next state (R172). -/
theorem complete_decodeTemp {s : State} {b0 b1 : Byte} (h0 : Memory.read 0 s.rxbuf = some b0) (h1 : Memory.read 1 s.rxbuf = some b1) :
    complete (some .decodeTemp) s = .next { s with
      phase := .idle
      cpl := 0#4
      tail := false
      cplPulse := some 1#3
      resTemp := scaleTemp (decode12 b0 b1) } := by
  simp only [complete, runContinuation, withDecoded, h0, h1]
  rfl

/-- The upper 12 bits of two bytes, as a number (R171). -/
theorem toNat_topTwelve (b0 b1 : Byte) : ((b0 ++ b1).extractLsb' 4 12).toNat = 16 * b0.toNat + (b1.extractLsb' 4 4).toNat := by
  have h0 := b0.isLt
  have h1 := b1.isLt
  simp only [BitVec.extractLsb'_toNat, BitVec.toNat_append, Nat.shiftRight_eq_div_pow]
  rw [← Nat.shiftLeft_add_eq_or_of_lt h1, Nat.shiftLeft_eq]
  omega

/-- `Decode12` is the signed value of the upper 12 bits: 4096 is taken off where bit 7 of the first byte is set (R171). -/
theorem toInt_decode12 (b0 b1 : Byte) : (decode12 b0 b1).toInt = ((b0 ++ b1).extractLsb' 4 12).toInt := by
  have h0 := b0.isLt
  have hn := (b1.extractLsb' 4 4).isLt
  have hsign : b0.getLsbD 7 = decide (128 ≤ b0.toNat) := (BitVec.msb_eq_getLsbD_last b0).symm.trans (BitVec.msb_eq_decide b0)
  have hu : ((b0.setWidth 16 <<< 4) + (b1.extractLsb' 4 4).setWidth 16).toNat = 16 * b0.toNat + (b1.extractLsb' 4 4).toNat := by
    simp only [BitVec.toNat_add, BitVec.toNat_shiftLeft, BitVec.toNat_setWidth, Nat.shiftLeft_eq]
    omega
  rw [decode12, hsign, BitVec.toInt_eq_toNat_cond, BitVec.toInt_eq_toNat_cond, toNat_topTwelve]
  by_cases hneg : 128 ≤ b0.toNat
  · simp only [hneg, decide_true, if_true, BitVec.toNat_sub, BitVec.toNat_ofNat, hu]
    omega
  · simp only [hneg, decide_false, Bool.false_eq_true, if_false, hu]
    omega

/-- Scaling is exact: 10000 is 16 times 625, and the product fits 32 bits (R172, R175). -/
theorem toInt_scaleTemp (t : Half) : (scaleTemp t).toInt = 625 * t.toInt := by
  have hlo : -2 ^ 15 ≤ t.toInt := BitVec.le_toInt t
  have hhi : t.toInt < 2 ^ 15 := BitVec.toInt_lt
  have hprod : (t.signExtend 32 * 10000#32).toInt = t.toInt * 10000 := by
    rw [BitVec.toInt_mul, BitVec.toInt_signExtend_of_le (by decide)]
    exact Int.bmod_eq_of_le (by simp; omega) (by simp; omega)
  have hdiv : Int.tdiv (t.toInt * 10000) 16 = 625 * t.toInt := by
    rw [show t.toInt * 10000 = 625 * t.toInt * 16 by ring]
    exact Int.mul_tdiv_cancel _ (by decide)
  rw [scaleTemp, BitVec.toInt_sdiv, hprod]
  exact (congrArg (Int.bmod · _) hdiv).trans (Int.bmod_eq_of_le (by omega) (by omega))

/-- Settles O26: branch RD2 stores the byte at index 1, and the decode reads it there. -/
theorem lastReadEventDecodes : Obligations.LastReadEventDecodes := by
  intro s b0 b1 he hp hr hptr hb hread hcpl
  have hrx : s.lastByte.rxbuf = Memory.write 1 b1 s.rxbuf := by
    rw [State.lastByte, hptr, dataAnswer_of_some hb]
    rfl
  have h0 : Memory.read 0 s.lastByte.rxbuf = some b0 := by rw [hrx, Memory.read_write]; exact hread
  have h1 : Memory.read 1 s.lastByte.rxbuf = some b1 := by rw [hrx, Memory.read_write]; rfl
  have hk : continuationOf s.lastByte.cpl = .ok (some .decodeTemp) := (congrArg continuationOf hcpl).trans rfl
  have hstep := (exec_busEvent_full_last he hp hr).trans ((completeLive_of_ok hk).trans (complete_decodeTemp h0 h1))
  exact ⟨_, hstep, rfl, rfl, h1, rfl, rfl, (toInt_scaleTemp _).trans (by rw [toInt_decode12])⟩

end Sys2Proof.Machine

/-!
PROOFS of the family 41_transaction_engine: the frames, the pulse, and the stall.
-/

namespace Sys2Proof.Machine

/-! ## The frame of a completion -/

/-- What `Complete()` for `k` leaves beside what `complete_frame` names: every result slot but its own, and all of the descriptor but
where `CHAIN` starts the staged one (R139 to R142). -/
structure CompletionKept (k : Option Continuation) (s t : State) : Prop where
  evPend : t.evPend = s.evPend := by rfl
  ansData : t.ansData = s.ansData := by rfl
  draws : t.draws = s.draws := by rfl
  resTemp : k ≠ some .decodeTemp → t.resTemp = s.resTemp := by exact fun _ => rfl
  resThyst : k ≠ some .decodeThyst → t.resThyst = s.resThyst := by exact fun _ => rfl
  resTos : k ≠ some .decodeTos → t.resTos = s.resTos := by exact fun _ => rfl
  descriptor : k ≠ some .chain →
      t.taddr = s.taddr ∧ t.wptr = s.wptr ∧ t.wrem = s.wrem ∧ t.rptr = s.rptr ∧ t.rrem = s.rrem ∧
      t.bcTrace = s.bcTrace ∧ t.errBadDesc = s.errBadDesc ∧ t.own = s.own := by
    exact fun _ => ⟨rfl, rfl, rfl, rfl, rfl, rfl, rfl, rfl⟩

theorem complete_kept {k : Option Continuation} {s t : State} (h : complete k s = .next t) : CompletionKept k s t := by
  rcases complete_eq_next h with ⟨rfl, rfl⟩ | ⟨rfl, rfl⟩ | ⟨rfl, r, rfl⟩ | ⟨rfl, r, rfl⟩ | ⟨rfl, r, rfl⟩ | ⟨rfl, -, rfl⟩ |
    ⟨rfl, -, rfl⟩
  · exact { }
  · exact { }
  · exact { resTemp := fun hk => absurd rfl hk }
  · exact { resThyst := fun hk => absurd rfl hk }
  · exact { resTos := fun hk => absurd rfl hk }
  · exact { descriptor := fun hk => absurd rfl hk }
  · rw [accept_eq]
    exact { descriptor := fun hk => absurd rfl hk }

/-- A completion instruction runs `Complete()` for the continuation it is the row of, or for none (R87, R139). -/
theorem completion_eq_next {i : Instr} {s t : State}
    (hi : i = .cplNotify ∨ i = .cplDecodeTemp ∨ i = .cplDecodeThyst ∨ i = .cplDecodeTos ∨ i = .cplChain ∨ ∃ id, i = .cplNone id)
    (h : exec i s = .next t) : ∃ k, (∀ c, k = some c → i = c.instr) ∧ complete k s = .next t := by
  rcases hi with rfl | rfl | rfl | rfl | rfl | ⟨id, rfl⟩
  · exact ⟨some .notify, fun c hc => by cases hc; rfl, (completing_eq_next h).2⟩
  · exact ⟨some .decodeTemp, fun c hc => by cases hc; rfl, (completing_eq_next h).2⟩
  · exact ⟨some .decodeThyst, fun c hc => by cases hc; rfl, (completing_eq_next h).2⟩
  · exact ⟨some .decodeTos, fun c hc => by cases hc; rfl, (completing_eq_next h).2⟩
  · exact ⟨some .chain, fun c hc => by cases hc; rfl, (completing_eq_next h).2⟩
  · exact ⟨none, nofun, (completing_eq_next h).2⟩

/-- Settles O34, by `complete_frame` and `complete_kept`. -/
theorem completionFrame : Obligations.CompletionFrame := by
  intro s t i h hi
  obtain ⟨k, hk, h⟩ := completion_eq_next hi h
  obtain ⟨hhost, hrx, -⟩ := complete_frame h
  have hkept := complete_kept h
  have other : ∀ c : Continuation, i ≠ c.instr → k ≠ some c := fun c hne hkc => hne (hk c hkc)
  exact ⟨hhost.foreground, hrx, hhost.errBusyStart, hkept.evPend, hhost.ansStatus, hkept.ansData, hkept.draws,
    fun hne => hkept.resTemp (other .decodeTemp hne), fun hne => hkept.resThyst (other .decodeThyst hne),
    fun hne => hkept.resTos (other .decodeTos hne), fun hne => hkept.descriptor (other .chain hne)⟩

/-! ## The frame of a host command -/

/-- How many bytes a host command, or the delay step, puts into `TXBUF` (R160 to R168); `none` for every other instruction. -/
def commandBytes : Instr → Option Nat
  | .configure _ | .start | .delayDone => some 0
  | .startConv | .readMeas | .readLimit _ => some 1
  | .powerUp | .powerDown => some 2
  | .writeLimit _ _ => some 3
  | .bcConfigure _ | .bcReset | .bcStartWrite _ | .bcStartRead _ | .bcAck | .bcMarkLast | .bcStatus | .bcReadData | .bcWriteData _
  | .busEvent _ | .cplNotify | .cplDecodeTemp | .cplDecodeThyst | .cplDecodeTos | .cplChain | .cplNone _ => none

/-- What a host command that sends `n` bytes leaves; `ERR_BAD_DESC` stands apart, since `START` may set it (R131, R160). -/
structure CommandKept (n : Nat) (s t : State) : Prop where
  staged : sameStaged s t := by exact ⟨rfl, rfl, rfl, rfl, rfl, rfl⟩
  results : sameResults s t := by exact ⟨rfl, rfl, rfl⟩
  rxbuf : t.rxbuf = s.rxbuf := by rfl
  evPend : t.evPend = s.evPend := by rfl
  errIllCmd : t.errIllCmd = s.errIllCmd := by rfl
  cplPulse : t.cplPulse = s.cplPulse := by rfl
  hostOut : t.hostOut = s.hostOut := by rfl
  stim : t.stim = s.stim := by rfl
  ansStatus : t.ansStatus = s.ansStatus := by rfl
  ansData : t.ansData = s.ansData := by rfl
  bcPast : t.bcPast = s.bcPast := by rfl
  txbuf : ∀ a, n ≤ a → Memory.read a t.txbuf = Memory.read a s.txbuf := by exact fun _ _ => rfl

theorem engineStart_kept (d : Descriptor) (s : State) : CommandKept 0 s (engineStart d s).2 := by
  rcases engineStart_cases d s with ⟨-, h⟩ | ⟨-, -, h⟩ | ⟨-, -, h⟩ <;> rw [h]
  · exact { }
  · exact { }
  · rw [accept_eq]
    exact { }

/-- `ProtoStart` writes its bytes from `TXBUF[0]` on; its descriptor is never bad (R160). -/
theorem protoStart_kept {bytes : List Byte} {rcnt : Byte} {c : BitVec 4} (hl : bytes.length ≤ 3) (hr : rcnt.toNat ≤ 2)
    (hn : 0 < bytes.length ∨ 0 < rcnt.toNat) (hc : cplBad c = false) (s : State) :
    CommandKept bytes.length s (protoStart bytes rcnt c s).2 ∧ (protoStart bytes rcnt c s).2.errBadDesc = s.errBadDesc := by
  rcases protoStart_cases hl hr hn hc s with ⟨-, h⟩ | ⟨-, h⟩ <;> rw [h]
  · exact ⟨{ }, rfl⟩
  · rw [accept_eq]
    exact ⟨{ txbuf := fun a ha => (Memory.read_writeFrom_zero hl a).trans (if_neg (by omega)) }, rfl⟩

/-- The write-only sensor operations: one to three bytes, nothing to read (R162 to R164, R167). -/
theorem sensorWrite_kept {bytes : List Byte} (hl : bytes.length ≤ 3) (hn : 0 < bytes.length) {s t : State}
    (h : foreground s (protoStart bytes 0#8 0b0000#4 s).2 = .next t) :
    CommandKept bytes.length s t ∧ t.errBadDesc = s.errBadDesc :=
  (foreground_eq_next h).2 ▸ protoStart_kept hl (by decide) (.inl hn) (by decide) s

theorem pointerThenDelay_kept (ptr : Byte) (q : Sequencer) (s : State) :
    CommandKept 1 s (pointerThenDelay ptr q s) ∧ (pointerThenDelay ptr q s).errBadDesc = s.errBadDesc := by
  rcases pointerThenDelay_cases ptr q s with ⟨-, h⟩ | ⟨-, h⟩ <;> rw [h]
  · exact ⟨{ }, rfl⟩
  · rw [accept_eq]
    exact ⟨{ txbuf := fun a ha => (Memory.read_write ..).trans (if_neg (by omega)) }, rfl⟩

/-- The delay step ends the delay and starts the read that `SEQ` named (R168). -/
theorem delayDone_eq_next {s t : State} (h : exec .delayDone s = .next t) :
    t = (protoStart [] 2#8 (delayCpl s.seq) s.endDelay).2 := by
  simp only [exec, execDelayDone] at h
  split at h
  · cases h
  · injection h with h
    exact h.symm

theorem delayDone_kept {s t : State} (h : exec .delayDone s = .next t) : CommandKept 0 s t ∧ t.errBadDesc = s.errBadDesc := by
  obtain ⟨hkept, hbad⟩ := protoStart_kept (bytes := []) (rcnt := 2#8) (by decide) (by decide) (.inr (by decide))
    (cplBad_delayCpl s.seq) s.endDelay
  rw [delayDone_eq_next h]
  exact ⟨{ hkept with }, hbad⟩

/-- The frame of every host command and the delay step. -/
theorem command_kept {i : Instr} {n : Nat} {s t : State} (hi : commandBytes i = some n) (h : exec i s = .next t) :
    CommandKept n s t ∧ (i ≠ .start → t.errBadDesc = s.errBadDesc) := by
  have other : CommandKept n s t ∧ t.errBadDesc = s.errBadDesc →
      CommandKept n s t ∧ (i ≠ .start → t.errBadDesc = s.errBadDesc) := And.imp_right fun hbad _ => hbad
  cases i with
  | configure mode => cases hi; exact other ((foreground_eq_next h).2 ▸ ⟨{ }, rfl⟩)
  | start => cases hi; exact ⟨(foreground_eq_next h).2 ▸ engineStart_kept _ s, fun hne => absurd rfl hne⟩
  | powerUp => cases hi; exact other (sensorWrite_kept (by simp) (by simp) h)
  | powerDown => cases hi; exact other (sensorWrite_kept (by simp) (by simp) h)
  | startConv => cases hi; exact other (sensorWrite_kept (by simp) (by simp) h)
  | readMeas => cases hi; exact other ((foreground_eq_next h).2 ▸ pointerThenDelay_kept ..)
  | readLimit which => cases hi; exact other ((foreground_eq_next h).2 ▸ pointerThenDelay_kept ..)
  | writeLimit which v => cases hi; exact other (sensorWrite_kept (by simp) (by simp) h)
  | delayDone => cases hi; exact other (delayDone_kept h)
  | _ => cases hi

/-- Settles O35, by `command_kept`. -/
theorem hostCommandFrame : Obligations.HostCommandFrame := by
  intro s t i n h hi
  have hn : commandBytes i = some n := by
    rcases hi with ⟨⟨m, rfl⟩, rfl⟩ | ⟨rfl, rfl⟩ | ⟨rfl, rfl⟩ | ⟨rfl, rfl⟩ | ⟨rfl, rfl⟩ | ⟨⟨which, rfl⟩, rfl⟩ | ⟨rfl, rfl⟩ |
      ⟨rfl, rfl⟩ | ⟨⟨which, v, rfl⟩, rfl⟩ <;> rfl
  obtain ⟨hk, hbad⟩ := command_kept hn h
  exact ⟨hk.staged, hk.results, hk.rxbuf, hk.evPend, hk.errIllCmd, hbad, hk.cplPulse, hk.hostOut, hk.stim, hk.ansStatus, hk.ansData,
    hk.bcPast, hk.txbuf⟩

/-! ## What a delivered input leaves of the outputs, the inputs and a live transaction -/

/-- Every word that decodes at `CMD` is a host command (R82). -/
theorem commandBytes_of_decode_host {w : HostWord} {i : Instr} (h : decode (.host w) = .ok i) : ∃ n, commandBytes i = some n := by
  have henc := encode_of_decode h
  cases i with
  | configure | start | powerUp | powerDown | startConv | readMeas | readLimit | writeLimit => exact ⟨_, rfl⟩
  | _ => cases henc

/-- A command at the controller's port on its own writes the trace, and a query uses up its answer (R111 to R119). -/
theorem busCommand_eq_next {w : BusWord} {i : Instr} {s t : State} (hd : decode (.bus w) = .ok i) (h : exec i s = .next t) :
    ∃ es a b n, t = { s with bcTrace := es, ansStatus := a, ansData := b, draws := n } := by
  have henc := encode_of_decode hd
  cases i with
  | bcConfigure | bcReset | bcStartWrite | bcStartRead | bcAck | bcMarkLast | bcStatus | bcReadData | bcWriteData =>
    injection h with h
    exact ⟨_, _, _, _, h.symm⟩
  | _ => cases henc

/-- A host access that is no command drives no pulse and takes no further input. -/
theorem hostAccess_kept {op : HostOp} {s t : State} (h : hostAccess op s = .next t) : t.cplPulse = s.cplPulse ∧ t.stim = s.stim := by
  rcases hostAccess_eq_next h with ⟨n, v, -, rfl⟩ | ⟨d, rfl⟩ | ⟨a, b, -, rfl⟩ | ⟨a, b, -, rfl⟩
  · obtain ⟨a, p, c, q, r, k, hw⟩ := writeRegister_eq s n v
    rw [hw]
    exact ⟨rfl, rfl⟩
  · exact ⟨rfl, rfl⟩
  · exact ⟨rfl, rfl⟩
  · exact ⟨rfl, rfl⟩

/-- Only a completion pulses: a delivered input does not (R201). -/
theorem deliver_no_pulse {x : Stimulus} {s t : State} (hs : s.cplPulse = none) (h : (deliver x s).outcome = .next t) :
    t.cplPulse = none := by
  rcases deliver_eq_next h with ⟨w, i, -, hd, h⟩ | ⟨w, e, -, -, rfl⟩ | ⟨-, rfl⟩ | ⟨op, -, -, -, h⟩ | ⟨-, h⟩ | ⟨e, w, b, -, rfl⟩ |
    ⟨-, rfl⟩ | ⟨w, i, -, hd, h⟩
  · obtain ⟨n, hn⟩ := commandBytes_of_decode_host hd
    exact (command_kept hn h).1.cplPulse.trans hs
  · exact hs
  · exact hs
  · exact (hostAccess_kept h).1.trans hs
  · exact (command_kept rfl h).1.cplPulse.trans hs
  · exact hs
  · rfl
  · obtain ⟨es, a, b, n, rfl⟩ := busCommand_eq_next hd h
    exact hs

/-- A host command, or the delay step, leaves the live descriptor of a transaction in progress (R160, R192). -/
theorem command_sameLive {i : Instr} {n : Nat} {s t : State} (hi : commandBytes i = some n) (hl : s.phase.live = true)
    (h : exec i s = .next t) : sameLive s t := by
  have start : ∀ d, sameLive s (engineStart d s).2 := fun d => by
    rw [engineStart, if_pos hl]
    exact .refl s
  have proto : ∀ bytes rcnt c, sameLive s (protoStart bytes rcnt c s).2 := fun bytes rcnt c => by
    rw [protoStart, if_pos hl]
    exact .refl s
  have pointer : ∀ ptr q, sameLive s (pointerThenDelay ptr q s) := fun ptr q => by
    rw [pointerThenDelay, protoStart, if_pos hl]
    exact .refl s
  cases i with
  | configure mode => exact (foreground_eq_next h).2 ▸ .refl s
  | start => exact (foreground_eq_next h).2 ▸ start _
  | powerUp => exact (foreground_eq_next h).2 ▸ proto ..
  | powerDown => exact (foreground_eq_next h).2 ▸ proto ..
  | startConv => exact (foreground_eq_next h).2 ▸ proto ..
  | readMeas => exact (foreground_eq_next h).2 ▸ pointer ..
  | readLimit which => exact (foreground_eq_next h).2 ▸ pointer ..
  | writeLimit which v => exact (foreground_eq_next h).2 ▸ proto ..
  | delayDone =>
    have hl' : s.endDelay.phase.live = true := hl
    rw [delayDone_eq_next h, protoStart, if_pos hl']
    exact .refl s
  | _ => cases hi

/-- What an input that is no event and no reset leaves of a live transaction: all of it, no event raised, none to come that was not. -/
theorem deliver_live {x : Stimulus} {s t : State} (hl : s.phase.live = true) (hr : x ≠ .reset) (he : ∀ e w b, x ≠ .byteEvent e w b)
    (h : (deliver x s).outcome = .next t) :
    sameLive s t ∧ t.evPend = s.evPend ∧ ∀ y ∈ t.stim, y.isEvent = true → y ∈ s.stim := by
  have command : ∀ {i n}, commandBytes i = some n → exec i s = .next t →
      sameLive s t ∧ t.evPend = s.evPend ∧ ∀ y ∈ t.stim, y.isEvent = true → y ∈ s.stim := fun hn h =>
    have hk := (command_kept hn h).1
    ⟨command_sameLive hn hl h, hk.evPend, fun y hy _ => hk.stim ▸ hy⟩
  rcases deliver_eq_next h with ⟨w, i, -, hd, h⟩ | ⟨w, e, -, -, rfl⟩ | ⟨-, rfl⟩ | ⟨op, -, -, -, h⟩ | ⟨-, h⟩ | ⟨e, w, b, hx, -⟩ |
    ⟨hx, -⟩ | ⟨w, i, -, hd, h⟩
  · obtain ⟨n, hn⟩ := commandBytes_of_decode_host hd
    exact command hn h
  · exact ⟨.refl s, rfl, fun y hy _ => hy⟩
  · refine ⟨.refl s, rfl, fun y hy hev => ?_⟩
    change y ∈ (if s.readsIdle then s.stim else s.pollAgain) at hy
    split at hy
    · exact hy
    · rcases mem_pollAgain hy with rfl | hy
      · cases hev
      · exact hy
  · obtain ⟨hlive, -, -, -, hev, -⟩ := hostAccessFrame s t op h
    exact ⟨hlive, hev, fun y hy _ => (hostAccess_kept h).2 ▸ hy⟩
  · exact command rfl h
  · exact absurd hx (he e w b)
  · exact absurd hx hr
  · obtain ⟨es, a, b, n, rfl⟩ := busCommand_eq_next hd h
    exact ⟨.refl s, rfl, fun y hy _ => hy⟩

/-! ## The pulse -/

/-- The retire leaves nothing registered. -/
theorem cplSet_zero : cplSet 0#4 = false := by decide

/-- `Complete()` pulses for the continuation it ran, and then retires or, by `CHAIN`, has started the staged descriptor (R139, R147). -/
theorem complete_pulse {k : Option Continuation} {s t : State} {id : BitVec 3} (h : complete k s = .next t) (hs : s.cplPulse = none)
    (hp : t.cplPulse = some id) :
    ∃ c, k = some c ∧ c.id = id ∧
      ((t.phase = .idle ∧ cplSet t.cpl = false) ∨ (id = 4#3 ∧ t.phase.live = true ∧ t.own = s.staged)) := by
  rcases complete_eq_next h with ⟨rfl, rfl⟩ | ⟨rfl, rfl⟩ | ⟨rfl, r, rfl⟩ | ⟨rfl, r, rfl⟩ | ⟨rfl, r, rfl⟩ | ⟨rfl, -, rfl⟩ |
    ⟨rfl, -, rfl⟩
  · cases hs.symm.trans hp
  · exact ⟨_, rfl, Option.some.inj hp, .inl ⟨rfl, cplSet_zero⟩⟩
  · exact ⟨_, rfl, Option.some.inj hp, .inl ⟨rfl, cplSet_zero⟩⟩
  · exact ⟨_, rfl, Option.some.inj hp, .inl ⟨rfl, cplSet_zero⟩⟩
  · exact ⟨_, rfl, Option.some.inj hp, .inl ⟨rfl, cplSet_zero⟩⟩
  · exact ⟨_, rfl, Option.some.inj hp, .inl ⟨rfl, cplSet_zero⟩⟩
  · have hid : 4#3 = id := Option.some.inj (by rw [accept_eq] at hp; exact hp)
    exact ⟨_, rfl, hid, .inr ⟨hid.symm, accept_live _ _, by rw [accept_eq]⟩⟩

/-- An event in `Idle` is consumed, so a handler step that completes began in a transaction (R138). -/
theorem busEvent_pulse_not_idle {s t : State} {w : StatusWord} (h : exec (.busEvent w) s = .next t) (hs : s.cplPulse = none)
    (hp : t.cplPulse ≠ none) : s.phase ≠ .idle := by
  intro hidle
  have he := (execBusEvent_eq_next h).1
  rw [unmatchedEventIsConsumed s w he (.inl hidle)] at h
  injection h with h
  exact hp (h ▸ hs)

/-- Settles O32: only `Complete()` pulses, run in `Complete` or at the end of a handler step. -/
theorem pulseMeansOneContinuationRan : Obligations.PulseMeansOneContinuationRan := by
  intro s t id h hp
  rcases step_eq_next h with rfl | ⟨hc, i, hd, h⟩ | ⟨-, -, h⟩ | ⟨x, rest, -, -, h⟩
  · cases hp
  · obtain ⟨k, hk, hexec⟩ := exec_of_decode_completion hd
    rw [hexec s.clearOutputs hc] at h
    obtain ⟨c, rfl, rfl, hend⟩ := complete_pulse h rfl hp
    obtain ⟨hset, hid⟩ := continuationOf_some hk
    exact ⟨by rw [hc]; simp, hset, hid, hend⟩
  · have hidle := busEvent_pulse_not_idle h rfl (by rw [hp]; simp)
    obtain ⟨u, hu, rfl | h⟩ := busEvent_moved h
    · cases hu.outcome.cplPulse.symm.trans hp
    obtain ⟨k, hk, h⟩ := completeLive_eq_next h
    obtain ⟨c, rfl, rfl, hend⟩ := complete_pulse h hu.outcome.cplPulse hp
    obtain ⟨hset, hid⟩ := continuationOf_some hk
    have hcpl : u.cpl = s.cpl := hu.cpl
    have hstaged : u.staged = s.staged := by
      obtain ⟨h1, h2, h3, h4, h5, h6, -⟩ := hu.host.foreground
      simp only [State.staged, h1, h2, h3, h4, h5, h6]
      rfl
    exact ⟨hidle, hcpl ▸ hset, hcpl ▸ hid, hstaged ▸ hend⟩
  · cases (deliver_no_pulse rfl h).symm.trans hp

/-! ## The stall -/

/-- While a transaction is live the run is not finished (R195, R235). -/
theorem final_of_live {s : State} (hl : s.phase.live = true) : s.final = false := by
  have hp : s.phase ≠ .idle := fun h => by rw [h] at hl; cases hl
  simp [State.final, hp]

/-- With no event pending a live transaction is stalled exactly if none of its inputs is an event (R144). -/
theorem stalled_iff {s : State} (hl : s.phase.live = true) (he : s.evPend = false) :
    s.stalled = true ↔ ∀ y ∈ s.stim, y.isEvent = false := by
  simp [State.stalled, hl, he]

/-- A step that takes no event and no reset leaves a live transaction as it is (R144). -/
theorem step_live_kept {s t : State} (hl : s.phase.live = true) (he : s.evPend = false) (hr : ¬ comesFirst s .reset)
    (hev : ∀ early w b, ¬ comesFirst s (.byteEvent early w b)) (h : step s = .next t) :
    sameLive s t ∧ t.evPend = false ∧ (∀ y ∈ t.stim, y.isEvent = true → y ∈ s.stim) ∧ (s.stim = [] → t = s.clearOutputs) := by
  rcases step_eq_next h with rfl | ⟨hc, -⟩ | ⟨-, hpend, -⟩ | ⟨x, rest, hx, -, h⟩
  · exact ⟨.refl s, he, fun y hy _ => hy, fun _ => rfl⟩
  · rw [hc] at hl; cases hl
  · rw [he] at hpend; cases hpend
  · have hfirst := comesFirst_of_pick hx
    obtain ⟨-, pre, post, hs, rfl, -⟩ := takeFirst_eq_some hx
    have hs : s.stim = pre ++ x :: post := hs
    obtain ⟨hlive, hpend, hstim⟩ := deliver_live (s := { s.clearOutputs with stim := pre ++ post }) hl
      (fun hxr => hr (hxr ▸ hfirst)) (fun e w b hxe => hev e w b (hxe ▸ hfirst)) h
    refine ⟨hlive, hpend.trans he, fun y hy hye => ?_, fun hnil => ?_⟩
    · have hmem : y ∈ pre ++ post := hstim y hy hye
      rw [hs]
      simp only [List.mem_append, List.mem_cons] at hmem ⊢
      tauto
    · rw [hs] at hnil
      simp at hnil

/-- Settles O55, by `step_live_kept`. -/
theorem stallLastsUntilEventOrReset : Obligations.StallLastsUntilEventOrReset := by
  intro s t hl he hr hev h
  obtain ⟨hlive, hpend, hstim, hnil⟩ := step_live_kept hl he hr hev h
  have hlt : t.phase.live = true := by
    obtain ⟨-, -, -, -, -, -, hphase, -, -⟩ := hlive
    rw [hphase, hl]
  refine ⟨hlive, hpend, final_of_live hlt, fun hstall => ?_, hnil⟩
  refine (stalled_iff hlt hpend).2 fun y hy => Bool.eq_false_iff.2 fun hye => ?_
  rw [(stalled_iff hl he).1 hstall y (hstim y hy hye)] at hye
  cases hye

end Sys2Proof.Machine

/-!
PROOFS of the family 41_transaction_engine: whole transactions.
-/

namespace Sys2Proof.Machine

/-! ## The end of the write phase -/

/-- The events after those that lead to `t` are served from `t`. -/
theorem serveEvents_append {es : List (StatusWord × Byte)} {s t : State} (h : serveEvents es s = .next t)
    (fs : List (StatusWord × Byte)) : serveEvents (es ++ fs) s = serveEvents fs t := by
  induction es generalizing s with
  | nil =>
    injection h with h
    rw [h, List.nil_append]
  | cons e es ih =>
    obtain ⟨w, b⟩ := e
    rw [List.cons_append, serveEvents]
    rw [serveEvents] at h
    split at h
    · exact ih h
    · cases h
    · cases h

/-- A transaction has retired in `t`, with the words `told` in the trace and the bytes received in `RXBUF` from `a` on (R139, R149). -/
def Retired (a : Nat) (inn : List Byte) (told : List BusEntry) (t : State) : Prop :=
  t.phase = .idle ∧ (∀ k, k < inn.length → Memory.read (a + k) t.rxbuf = inn[k]?) ∧ t.bcTrace = told

/-- What a read phase of `r` bytes puts into the trace; nothing where there is none (R149). -/
def readPhaseTrace (r : Byte) (inn : List Byte) : List BusEntry :=
  if 0 < r.toNat then
    [sampled statusUnprimed, sent 0x500#12] ++ (if r = 1#8 then [sent 0x600#12] else []) ++ readTrace inn
  else []

/-- The read phase of a transaction with no continuation, to its retire (R135 to R137). -/
theorem serveEvents_read_retires {s : State} {inn : List Byte} (u : Byte) (hp : s.phase = .reading) (hr : 0 < s.rrem.toNat)
    (hinn : inn.length = s.rrem.toNat) (hfit : s.rptr.toNat + s.rrem.toNat ≤ 256) (hset : cplSet s.cpl = false) :
    ∃ t, serveEvents (readEvents u inn) s = .next t ∧
      Retired s.rptr.toNat inn (s.bcTrace ++ readPhaseTrace s.rrem inn) t := by
  obtain ⟨t, ht, hidle, -, -, -, -, hread, -, htrace⟩ := readPhaseStoresBytesInOrder u inn s hp hr hinn hfit hset
  refine ⟨t, ht, hidle, hread, ?_⟩
  rw [htrace, readPhaseTrace, if_pos hr]
  simp only [List.append_assoc]

/-- With all bytes sent, one event more ends the write phase: the read phase follows, or the transaction retires (R134, R145). -/
theorem serveEvents_exhausted {s : State} {inn : List Byte} (x : StatusWord × Byte) (u : Byte) (hp : s.phase = .writing)
    (hw : s.wrem = 0#8) (ht : s.tail = true) (hinn : inn.length = s.rrem.toNat)
    (hfit : 0 < s.rrem.toNat → s.rptr.toNat + s.rrem.toNat ≤ 256) (hset : cplSet s.cpl = false) :
    ∃ t, serveEvents ([x] ++ (if 0 < s.rrem.toNat then readEvents u inn else [])) s = .next t ∧
      Retired s.rptr.toNat inn
        (s.bcTrace ++ ([sampled x.1] ++ (if 0 < s.rrem.toNat then [sent (0x400#12 + s.taddr.setWidth 12)] else [])) ++
          readPhaseTrace s.rrem inn) t := by
  obtain ⟨w, b⟩ := x
  by_cases hr : 0 < s.rrem.toNat
  · have hstep := exec_busEvent_W2_read (s := s.raiseEvent w.bits (some b)) (w := w) rfl hp hw ht hr
    obtain ⟨t, hserve, hret⟩ := serveEvents_read_retires (s := { s.raiseEvent w.bits (some b) with
      evPend := false, tail := false, phase := .reading
      bcTrace := s.bcTrace ++ [sampled w, sent (0x400#12 + s.taddr.setWidth 12)] }) u rfl hr hinn (hfit hr) hset
    rw [if_pos hr, if_pos hr]
    exact ⟨t, (serveEvents_cons hstep _).trans hserve, hret⟩
  · have hr0 : s.rrem = 0#8 := BitVec.eq_of_toNat_eq (Nat.eq_zero_of_not_pos hr)
    have hstep := (exec_busEvent_W2_done (s := s.raiseEvent w.bits (some b)) (w := w) rfl hp hw ht hr0).trans
      (completeLive_of_not_set hset)
    have hnil : inn = [] := List.eq_nil_of_length_eq_zero (by omega)
    rw [if_neg hr, if_neg hr, readPhaseTrace, if_neg hr]
    refine ⟨_, serveEvents_cons hstep [], rfl, fun k hk => ?_, ?_⟩
    · rw [hnil] at hk
      cases hk
    · simp [State.afterSample]

/-- The events of a transaction with a write phase and no continuation, to its retire (R145, R149). -/
theorem serveEvents_write_retires {s : State} {ws : List (StatusWord × Byte)} {out inn : List Byte} (x : StatusWord × Byte) (u : Byte)
    (hp : s.phase = .writing) (ht : s.tail = true) (hset : cplSet s.cpl = false) (hw : 0 < s.wrem.toNat)
    (hws : ws.length = s.wrem.toNat) (hout : out.length = s.wrem.toNat) (hinn : inn.length = s.rrem.toNat)
    (hwfit : s.wptr.toNat + s.wrem.toNat ≤ 256) (hrfit : 0 < s.rrem.toNat → s.rptr.toNat + s.rrem.toNat ≤ 256)
    (hread : ∀ k, k < s.wrem.toNat → Memory.read (s.wptr.toNat + k) s.txbuf = out[k]?) :
    ∃ t, serveEvents (ws ++ [x] ++ (if 0 < s.rrem.toNat then readEvents u inn else [])) s = .next t ∧
      Retired s.rptr.toNat inn
        (s.bcTrace ++
          (writeTrace ws out ++ [sampled x.1] ++ (if 0 < s.rrem.toNat then [sent (0x400#12 + s.taddr.setWidth 12)] else [])) ++
          readPhaseTrace s.rrem inn) t := by
  obtain ⟨v, hv, hpv, hwv, -, hrrem, hrptr, htail, hcpl, htaddr, -, -, htrace⟩ :=
    writePhaseSendsBytesInOrder ws out s hp hws hout hw hwfit hread
  obtain ⟨t, hserve, hret⟩ := serveEvents_exhausted x u hpv hwv (htail.trans ht) (hrrem ▸ hinn) (by rwa [hrrem, hrptr])
    (hcpl ▸ hset)
  rw [hrrem] at hserve
  rw [hrptr, hrrem, htrace, htaddr] at hret
  rw [List.append_assoc ws]
  refine ⟨t, (serveEvents_append hv _).trans hserve, ?_⟩
  simpa only [List.append_assoc] using hret

/-! ## From `START` to the retire -/

/-- An admitted `START` loads the live registers from the staged ones and sends `reset()` and the start (R130, R131). -/
theorem accept_staged (s : State) :
    (s.accept s.staged).taddr = s.sTaddr ∧ (s.accept s.staged).wptr = s.sWptr ∧ (s.accept s.staged).wrem = s.sWcnt ∧
    (s.accept s.staged).rptr = s.sRptr ∧ (s.accept s.staged).rrem = s.sRcnt ∧ (s.accept s.staged).cpl = s.sCpl ∧
    (s.accept s.staged).phase = (if 0 < s.sWcnt.toNat then .writing else .reading) ∧ (s.accept s.staged).tail = true ∧
    (s.accept s.staged).txbuf = s.txbuf ∧
    (s.accept s.staged).bcTrace = s.bcTrace ++
      [sent 0x200#12, sent (if 0 < s.sWcnt.toNat then 0x300#12 + s.sTaddr.setWidth 12 else 0x400#12 + s.sTaddr.setWidth 12)] := by
  rw [accept_eq]
  exact ⟨rfl, rfl, rfl, rfl, rfl, rfl, rfl, rfl, rfl, rfl⟩

theorem readEvents_length (u : Byte) (inn : List Byte) : (readEvents u inn).length = inn.length + 1 := by
  simp [readEvents]

/-- Settles O60: `START` admits the descriptor; with a byte to send the write phase comes first, else the read phase is all. -/
theorem transactionTraceAndEventCount : Obligations.TransactionTraceAndEventCount := by
  intro s ws x u out inn evs hl hq hgood hset hws hout hinn hread hevs
  obtain ⟨hcnt, hwfit, hrfit, -⟩ := (badDesc_eq_false_iff s.staged).1 hgood
  have hstart : exec .start s = .next (s.accept s.staged) := by rw [exec_start hl hq, hgood]; rfl
  obtain ⟨htaddr, hwptr, hwrem, hrptr, hrrem, hcpl, hphase, htail, htx, htrace⟩ := accept_staged s
  subst hevs
  refine ⟨?_, s.accept s.staged, ?_⟩
  · split_ifs <;> simp [readEvents_length, hws, hinn] <;> omega
  generalize s.accept s.staged = v at *
  by_cases hw : 0 < s.sWcnt.toNat
  · rw [if_pos hw] at hphase htrace
    have hfit : s.sWptr.toNat + s.sWcnt.toNat ≤ 256 := hwfit hw
    obtain ⟨t, hserve, hret⟩ := serveEvents_write_retires (s := v) (ws := ws) (out := out) (inn := inn) x u hphase htail
      (by rwa [hcpl]) (by rwa [hwrem]) (by rwa [hwrem]) (by rwa [hwrem]) (by rwa [hrrem]) (by rwa [hwptr, hwrem])
      (by rwa [hrptr, hrrem]) (by rwa [hwptr, hwrem, htx])
    rw [hrrem] at hserve
    rw [hrptr, hrrem, htaddr, htrace] at hret
    rw [if_pos hw, if_pos hw, if_pos hw]
    exact ⟨t, hstart, hserve, hret⟩
  · rw [if_neg hw] at hphase htrace
    have hr : 0 < s.sRcnt.toNat := Nat.pos_of_ne_zero fun h =>
      hcnt ⟨BitVec.eq_of_toNat_eq (Nat.eq_zero_of_not_pos hw), BitVec.eq_of_toNat_eq h⟩
    have hfit : s.sRptr.toNat + s.sRcnt.toNat ≤ 256 := hrfit hr
    obtain ⟨t, hserve, hret⟩ := serveEvents_read_retires (s := v) (inn := inn) u hphase (by rwa [hrrem]) (by rwa [hrrem])
      (by rwa [hrptr, hrrem]) (by rwa [hcpl])
    rw [hrptr, hrrem, htrace] at hret
    rw [if_neg hw, if_neg hw, if_neg hw, if_pos hr, List.nil_append, List.append_nil]
    exact ⟨t, hstart, hserve, hret⟩

end Sys2Proof.Machine

/-!
PROOFS of the family 42_sensor_protocol: the limit encoding, the 12-bit decode and the scaling, as numbers.
-/

namespace Sys2Proof.Machine

/-! ## The limit in two bytes -/

/-- A shift left by 4 loses bits 15:12 and ends in four zeros; here it is cut between its two bytes (R170). -/
theorem shiftLeft_four_eq_append (x : Half) : x <<< 4 = x.extractLsb' 4 8 ++ (x.extractLsb' 0 4 ++ 0#4) := by
  apply BitVec.eq_of_getLsbD_eq
  intro i hi
  rw [BitVec.getLsbD_shiftLeft, BitVec.getLsbD_append, BitVec.getLsbD_append, BitVec.getLsbD_extractLsb',
    BitVec.getLsbD_extractLsb']
  by_cases h4 : i < 4
  · have h8 : i < 8 := by omega
    simp [h4, h8]
  by_cases h8 : i < 8
  · have h : i - 4 < 4 := by omega
    simp [hi, h4, h8, h]
  · have h : i - 8 < 8 := by omega
    have hsub : 4 + (i - 8) = i - 4 := by omega
    simp [hi, h4, h8, h, hsub]

/-- The two bytes are bits 11:4 of the value, and bits 3:0 with four zeros (R170). -/
theorem encodeLimit_eq (v : Int) :
    encodeLimit v = ((BitVec.ofInt 16 v).extractLsb' 4 8, (BitVec.ofInt 16 v).extractLsb' 0 4 ++ 0#4) := by
  rw [encodeLimit, shiftLeft_four_eq_append, BitVec.extractLsb'_append_eq_left, BitVec.extractLsb'_append_eq_right]

/-- The low 12 bits of a limit (R170). -/
def lowTwelve (v : Int) : BitVec 12 := (BitVec.ofInt 16 v).extractLsb' 0 12

/-- The two bytes joined, most significant byte first, are the low 12 bits left-justified (R170). -/
theorem encodeLimit_append (v : Int) : (encodeLimit v).1 ++ (encodeLimit v).2 = lowTwelve v ++ 0#4 := by
  have hcut : (BitVec.ofInt 16 v).extractLsb' 4 8 ++ (BitVec.ofInt 16 v).extractLsb' 0 4 = lowTwelve v :=
    BitVec.extractLsb'_append_extractLsb'_eq_extractLsb' rfl
  rw [encodeLimit_eq, ← hcut, BitVec.append_assoc, BitVec.cast_eq]

/-- The encoding depends on the low 12 bits only: bits 15:12 are lost (R170). -/
theorem encodeLimit_congr {v u : Int} (h : lowTwelve v = lowTwelve u) : encodeLimit v = encodeLimit u := by
  have hbits : ∀ x, encodeLimit x = ((lowTwelve x).extractLsb' 4 8, (lowTwelve x).extractLsb' 0 4 ++ 0#4) := fun x => by
    rw [encodeLimit_eq, lowTwelve, BitVec.extractLsb'_extractLsb'_of_le (by decide),
      BitVec.extractLsb'_extractLsb'_of_le (by decide)]
  rw [hbits, hbits, h]

/-! ## `Decode12` -/

/-- `Decode12` is the sign extension of the top 12 bits of its two bytes (R171). -/
theorem decode12_eq_signExtend (b0 b1 : Byte) : decode12 b0 b1 = ((b0 ++ b1).extractLsb' 4 12).signExtend 16 :=
  BitVec.eq_of_toInt_eq ((toInt_decode12 b0 b1).trans (BitVec.toInt_signExtend_of_le (by decide)).symm)

/-- The sign of the top 12 bits is bit 7 of the first byte, worth 4096 (R171). -/
theorem toInt_decode12_eq_add (b0 b1 : Byte) :
    (decode12 b0 b1).toInt = (if b0.getLsbD 7 then -4096 else 0) + (16 * b0.toNat + (b1.extractLsb' 4 4).toNat : Int) := by
  have hn := (b1.extractLsb' 4 4).isLt
  have hsign : b0.getLsbD 7 = decide (128 ≤ b0.toNat) := (BitVec.msb_eq_getLsbD_last b0).symm.trans (BitVec.msb_eq_decide b0)
  rw [toInt_decode12, BitVec.toInt_eq_toNat_cond, toNat_topTwelve, hsign]
  by_cases hneg : 128 ≤ b0.toNat
  · rw [if_neg (by omega), if_pos (decide_eq_true hneg)]
    push_cast
    omega
  · rw [if_pos (by omega), if_neg (by simpa using hneg)]
    push_cast
    omega

/-- `Decode12` fits 12 bits (R171). -/
theorem decode12_range (b0 b1 : Byte) : -2048 ≤ (decode12 b0 b1).toInt ∧ (decode12 b0 b1).toInt ≤ 2047 := by
  rw [toInt_decode12]
  exact ⟨BitVec.le_toInt _, Int.le_of_lt_add_one BitVec.toInt_lt⟩

/-- Settles O42: the low nibble of the second byte does not stand in `decode12`. -/
theorem decodeIsSignExtendedTopTwelve : Obligations.DecodeIsSignExtendedTopTwelve := fun b0 b1 =>
  ⟨decode12_eq_signExtend b0 b1, fun c hc => by rw [decode12, decode12, hc], toInt_decode12_eq_add b0 b1, decode12_range b0 b1⟩

/-! ## Decoding an encoded limit -/

/-- The low 12 bits come back sign-extended (R177). -/
theorem decode12_encodeLimit (v : Int) : decode12 (encodeLimit v).1 (encodeLimit v).2 = (lowTwelve v).signExtend 16 := by
  rw [decode12_eq_signExtend, encodeLimit_append, BitVec.extractLsb'_append_eq_left]

/-- As a number, what comes back is the limit modulo 4096, in the signed 12-bit range (R177). -/
theorem toInt_decode12_encodeLimit (v : Int) : (decode12 (encodeLimit v).1 (encodeLimit v).2).toInt = v.bmod (2 ^ 12) := by
  have hlow : lowTwelve v = (BitVec.ofInt 16 v).signExtend 12 := by
    rw [BitVec.signExtend_eq_setWidth_of_le _ (by decide), BitVec.setWidth_eq_extractLsb' (by decide), lowTwelve]
  rw [decode12_encodeLimit, BitVec.toInt_signExtend_of_le (by decide), hlow,
    BitVec.toInt_signExtend_eq_toInt_bmod_of_le _ (by decide), BitVec.toInt_ofInt, Int.bmod_bmod_of_dvd (by decide)]

/-- In the 12-bit range the limit itself comes back (R177). -/
theorem toInt_decode12_encodeLimit_of_range {v : Int} (hlo : -2048 ≤ v) (hhi : v ≤ 2047) :
    (decode12 (encodeLimit v).1 (encodeLimit v).2).toInt = v :=
  (toInt_decode12_encodeLimit v).trans (Int.bmod_eq_of_le hlo (Int.lt_add_one_of_le hhi))

/-- Settles O43: no limit outside the 12-bit range can come back, since `Decode12` always answers one inside. -/
theorem limitRoundTrip : Obligations.LimitRoundTrip := by
  refine fun v => ⟨decode12_encodeLimit v, toInt_decode12_encodeLimit_of_range, fun hout heq => ?_⟩
  obtain ⟨hlo, hhi⟩ := decode12_range (encodeLimit v).1 (encodeLimit v).2
  rw [heq] at hlo hhi
  omega

/-- Settles O41: in the 12-bit range the encoding has `Decode12` as its inverse, so no two values share one. -/
theorem encodedLimitIsLeftJustified : Obligations.EncodedLimitIsLeftJustified := by
  refine ⟨fun v => ⟨rfl, rfl, congrArg Prod.fst (encodeLimit_eq v), congrArg Prod.snd (encodeLimit_eq v), encodeLimit_append v⟩,
    fun v u => encodeLimit_congr, fun v u hv hv' hu hu' h => ?_⟩
  calc v = (decode12 (encodeLimit v).1 (encodeLimit v).2).toInt := (toInt_decode12_encodeLimit_of_range hv hv').symm
    _ = (decode12 (encodeLimit u).1 (encodeLimit u).2).toInt := by rw [h]
    _ = u := toInt_decode12_encodeLimit_of_range hu hu'

/-! ## The temperature scaling -/

/-- 10000 is 625 times 16 (R175). -/
theorem mul_scale_eq (t : Int) : t * 10000 = 625 * t * 16 := by ring

/-- Division by 16 toward zero of the scaled value is exact (R175). -/
theorem tdiv_scale_eq (t : Int) : Int.tdiv (t * 10000) 16 = 625 * t := by
  rw [mul_scale_eq, Int.mul_tdiv_cancel _ (by decide)]

/-- Settles O44: `mul_scale_eq`, and `toInt_scaleTemp` on a value that fits 12 bits. -/
theorem temperatureScalingIsExact : Obligations.TemperatureScalingIsExact := by
  refine ⟨fun t => ⟨tdiv_scale_eq t, ?_, ?_⟩, fun b0 b1 => ?_⟩
  · rw [mul_scale_eq, Int.mul_fdiv_cancel _ (by decide)]
  · rw [mul_scale_eq, Int.mul_tmod_left]
  · obtain ⟨hlo, hhi⟩ := decode12_range b0 b1
    rw [toInt_scaleTemp, tdiv_scale_eq]
    omega

end Sys2Proof.Machine

/-!
PROOFS of the family 42_sensor_protocol: the sensor operations, the delay step and the decodes, as whole next states.
-/

namespace Sys2Proof.Machine

/-! ## `CONFIGURE` -/

/-- A host command word as a number (R81). -/
theorem toNat_hostWord (op : Byte) (which : BitVec 1) (imm : Half) :
    (hostWord op which imm).toNat = op.toNat * 2 ^ 24 + which.toNat * 2 ^ 16 + imm.toNat := by
  simp only [hostWord, BitVec.toNat_append, BitVec.toNat_ofNat, Nat.zero_mod, Nat.or_zero]
  rw [← Nat.shiftLeft_add_eq_or_of_lt which.isLt, ← Nat.shiftLeft_add_eq_or_of_lt imm.isLt]
  simp only [Nat.shiftLeft_eq]
  omega

/-- `CONFIGURE` is the opcode in the top byte plus the mode (R81, R82). -/
theorem encode_configure (mode : Byte) : encode (.configure mode) = .host (0x01000000#32 + mode.setWidth 32) := by
  refine congrArg PortWord.host (BitVec.eq_of_toNat_eq ?_)
  have hmode : mode.toNat < 256 := mode.isLt
  have himm : (0#8 ++ mode).toNat = mode.toNat := by
    rw [BitVec.toNat_append, BitVec.toNat_ofNat, Nat.zero_mod, Nat.zero_shiftLeft, Nat.zero_or]
  rw [toNat_hostWord, himm, BitVec.toNat_add, BitVec.toNat_setWidth]
  simp only [BitVec.toNat_ofNat]
  omega

/-- Settles O15: the word's fields, and `bc.configure` in every `PHASE`. -/
theorem configureForwardsMode : Obligations.ConfigureForwardsMode := by
  refine ⟨encode_configure, fun s mode hq => ?_⟩
  rw [exec, execConfigure, foreground, if_pos hq, State.sendConfigure_eq]
  rfl

/-! ## Writes to the sensor -/

/-- The state after an operation of the protocol layer started its transaction: the bytes written from `TXBUF[0]` on, the device
addressed, the counts loaded (R160). -/
def State.protoStarted (s : State) (bytes : List Byte) (rcnt : Byte) (c : BitVec 4) : State :=
  { s with txbuf := Memory.writeFrom 0#8 bytes s.txbuf }.accept (protoDescriptor bytes.length rcnt c)

/-- With no transaction live `ProtoStart` is accepted (R160). -/
theorem protoStart_of_not_live {bytes : List Byte} {rcnt : Byte} {c : BitVec 4} (hlen : bytes.length ≤ 3) (hr : rcnt.toNat ≤ 2)
    (hn : 0 < bytes.length ∨ 0 < rcnt.toNat) (hc : cplBad c = false) {s : State} (hl : s.phase.live = false) :
    protoStart bytes rcnt c s = (.accepted, s.protoStarted bytes rcnt c) := by
  rcases protoStart_cases hlen hr hn hc s with ⟨h, -⟩ | ⟨-, h⟩
  · rw [hl] at h; cases h
  · exact h

/-- A start with bytes to send and nothing to read begins the write phase: the whole next state (R160). -/
theorem protoStarted_write (s : State) {bytes : List Byte} (hlen : bytes.length ≤ 3) (hpos : 0 < bytes.length) :
    s.protoStarted bytes 0#8 0#4 = { s with
      taddr := Config.devAddr
      wptr := 0#8
      wrem := BitVec.ofNat 8 bytes.length
      rptr := 0#8
      rrem := 0#8
      cpl := 0#4
      tail := true
      phase := .writing
      own := ⟨Config.devAddr, 0#8, BitVec.ofNat 8 bytes.length, 0#8, 0#8, 0#4⟩
      txbuf := Memory.writeFrom 0#8 bytes s.txbuf
      bcTrace := s.bcTrace ++ [sent 0x200#12, sent (0x300#12 + Config.devAddr.setWidth 12)] } := by
  have hcnt : 0 < (BitVec.ofNat 8 bytes.length).toNat := by
    rw [BitVec.toNat_ofNat]
    omega
  rw [State.protoStarted, accept_eq]
  simp only [protoDescriptor, hcnt, if_true]

/-- Settles O16: each operation is `ProtoStart` of its bytes, with nothing to read. -/
theorem sensorWritesStartOneTransaction : Obligations.SensorWritesStartOneTransaction := by
  intro s i bytes hl hq hi
  obtain ⟨hexec, hlen, hpos⟩ :
      exec i s = foreground s (protoStart bytes 0#8 0#4 s).2 ∧ bytes.length ≤ 3 ∧ 0 < bytes.length := by
    rcases hi with ⟨rfl, rfl⟩ | ⟨rfl, rfl⟩ | ⟨rfl, rfl⟩ | ⟨v, rfl, rfl⟩ | ⟨v, rfl, rfl⟩
    · exact ⟨rfl, by simp, by simp⟩
    · exact ⟨rfl, by simp, by simp⟩
    · exact ⟨rfl, by simp, by simp⟩
    · exact ⟨by rw [exec, execWriteLimit, encodeLimit_eq]; rfl, by simp, by simp⟩
    · exact ⟨by rw [exec, execWriteLimit, encodeLimit_eq]; rfl, by simp, by simp⟩
  refine ⟨Memory.writeFrom 0#8 bytes s.txbuf, Memory.read_writeFrom_zero hlen, ?_⟩
  rw [hexec, foreground, if_pos hq, protoStart_of_not_live hlen (by decide) (.inl hpos) (by decide) hl,
    protoStarted_write s hlen hpos]

/-! ## Reads from the sensor -/

/-- Settles O17: the pointer write is a start of one byte, and the delay follows. -/
theorem sensorReadsPointThenDelay : Obligations.SensorReadsPointThenDelay := by
  intro s i ptr q hl hq hi
  have hexec : exec i s = foreground s (pointerThenDelay ptr q s) := by
    rcases hi with ⟨rfl, rfl, rfl⟩ | ⟨rfl, rfl, rfl⟩ | ⟨rfl, rfl, rfl⟩ <;> rfl
  refine ⟨Memory.writeFrom 0#8 [ptr] s.txbuf, Config.freeDelayCount s.draws, s.draws + 1, fun a => Memory.read_write .., ?_⟩
  rw [hexec, foreground, if_pos hq, pointerThenDelay,
    protoStart_of_not_live (by simp) (by decide) (.inl (by simp)) (by decide) hl]
  dsimp only
  rw [protoStarted_write s (by simp) (by simp)]
  rfl

/-- Settles O18: the delay ended, `ProtoStart` of no bytes reads two. -/
theorem delayDoneStartsTheRead : Obligations.DelayDoneStartsTheRead := by
  intro s c hl hc
  obtain ⟨hq, rfl⟩ : s.seq ≠ .ready ∧ delayCpl s.seq = c := by
    rcases hc with ⟨hq, rfl⟩ | ⟨hq, rfl⟩ | ⟨hq, rfl⟩ <;> rw [hq] <;> exact ⟨by simp, rfl⟩
  refine ⟨Config.freeDelayCount s.draws, s.draws + 1, ?_⟩
  have hstart := protoStart_of_not_live (bytes := []) (rcnt := 2#8) (s := s.endDelay) (by decide) (by decide) (.inr (by decide))
    (cplBad_delayCpl s.seq) hl
  rw [exec, execDelayDone, if_neg hq, hstart, State.protoStarted, accept_eq]
  rfl

/-! ## The decodes -/

/-- The hysteresis decode with a value in both bytes: the whole next state (R173). -/
theorem complete_decodeThyst {s : State} {b0 b1 : Byte} (h0 : Memory.read 0 s.rxbuf = some b0)
    (h1 : Memory.read 1 s.rxbuf = some b1) :
    complete (some .decodeThyst) s = .next { s with
      phase := .idle, cpl := 0#4, tail := false, cplPulse := some 2#3, resThyst := decode12 b0 b1 } := by
  simp only [complete, runContinuation, withDecoded, h0, h1]
  rfl

/-- The overset decode with a value in both bytes: the whole next state (R174). -/
theorem complete_decodeTos {s : State} {b0 b1 : Byte} (h0 : Memory.read 0 s.rxbuf = some b0)
    (h1 : Memory.read 1 s.rxbuf = some b1) :
    complete (some .decodeTos) s = .next { s with
      phase := .idle, cpl := 0#4, tail := false, cplPulse := some 3#3, resTos := decode12 b0 b1 } := by
  simp only [complete, runContinuation, withDecoded, h0, h1]
  rfl

/-- Settles O30: the three decodes, with `Decode12` as the sign extension and the scaling as its number. -/
theorem decodeCompletionsWriteTheirSlot : Obligations.DecodeCompletionsWriteTheirSlot := by
  intro s b0 b1 hp h0 h1
  rw [← decode12_eq_signExtend]
  have htemp : (scaleTemp (decode12 b0 b1)).toInt = Int.tdiv (((b0 ++ b1).extractLsb' 4 12).toInt * 10000) 16 := by
    rw [tdiv_scale_eq, toInt_scaleTemp, toInt_decode12]
  exact ⟨⟨_, htemp, (completing_of_complete hp _).trans (complete_decodeTemp h0 h1)⟩,
    (completing_of_complete hp _).trans (complete_decodeThyst h0 h1),
    (completing_of_complete hp _).trans (complete_decodeTos h0 h1)⟩

end Sys2Proof.Machine

/-!
PROOFS of the family 60_exceptions: a start while a transaction is live.
-/

namespace Sys2Proof.Machine

/-! ## Starts refused by a live transaction -/

theorem engineStart_of_live (d : Descriptor) {s : State} (hl : s.phase.live = true) :
    engineStart d s = (.refused, { s with errBusyStart := true }) :=
  if_pos hl

/-- The busy check comes before `TXBUF` is touched (R160). -/
theorem protoStart_of_live (bytes : List Byte) (rcnt : Byte) (c : BitVec 4) {s : State} (hl : s.phase.live = true) :
    protoStart bytes rcnt c s = (.refused, { s with errBusyStart := true }) :=
  if_pos hl

/-- A refused pointer write enters no delay (R165, R166). -/
theorem pointerThenDelay_of_live (ptr : Byte) (q : Sequencer) {s : State} (hl : s.phase.live = true) :
    pointerThenDelay ptr q s = { s with errBusyStart := true } := by
  rw [pointerThenDelay, protoStart_of_live _ _ _ hl]

/-- The host commands that start a transaction: the staged one, or one of the sensor's (R131, R162 to R167). -/
theorem exec_starting_of_live {s : State} {i : Instr} (hl : s.phase.live = true)
    (hi : i = .start ∨ i = .powerUp ∨ i = .powerDown ∨ i = .startConv ∨ i = .readMeas ∨ (∃ which, i = .readLimit which) ∨
      ∃ which v, i = .writeLimit which v) :
    exec i s = foreground s { s with errBusyStart := true } := by
  have proto (bytes : List Byte) : (protoStart bytes 0#8 0b0000#4 s).2 = { s with errBusyStart := true } :=
    congrArg Prod.snd (protoStart_of_live bytes _ _ hl)
  have pointer (ptr : Byte) (q : Sequencer) := pointerThenDelay_of_live ptr q hl
  rcases hi with rfl | rfl | rfl | rfl | rfl | ⟨which, rfl⟩ | ⟨which, v, rfl⟩
  · exact congrArg (foreground s ·.2) (engineStart_of_live s.staged hl)
  · exact congrArg (foreground s) (proto _)
  · exact congrArg (foreground s) (proto _)
  · exact congrArg (foreground s) (proto _)
  · exact congrArg (foreground s) (pointer ..)
  · exact congrArg (foreground s) (pointer ..)
  · exact congrArg (foreground s) (proto _)

/-- The delay ends although its read is refused (R168, R192). -/
theorem exec_delayDone_of_live {s : State} (hl : s.phase.live = true) (hq : s.seq ≠ .ready) :
    exec .delayDone s = .next { s.endDelay with errBusyStart := true } := by
  rw [exec, execDelayDone, if_neg hq, protoStart_of_live _ _ _ (show s.endDelay.phase.live = true from hl)]

/-- Settles O12: every start goes through the busy check first, and `CHAIN` runs in `Complete`, which is not live. -/
theorem startWhileLiveOnlyFlags : Obligations.StartWhileLiveOnlyFlags := by
  refine ⟨fun s i hl hq hi => ?_, fun s hl hq => ?_, fun s t h => ?_⟩
  · rw [exec_starting_of_live hl hi, foreground, if_pos hq]
  · exact ⟨_, _, exec_delayDone_of_live hl hq⟩
  · exact (complete_frame (completing_eq_next h).2).1.errBusyStart

end Sys2Proof.Machine

/-!
PROOFS of the model's own choices: a wait while the delay runs, the values after reset, and reads of bytes without a value.
-/

namespace Sys2Proof.Machine

/-! ## Host accesses while the delay runs -/

/-- Settles O7: every input is a host access, which waits (R35), so that the step has nothing to take. -/
theorem hostAccessWaitsDuringDelay : Obligations.HostAccessWaitsDuringDelay := fun _ hq hd hall =>
  step_of_nothing hd fun x hx => .inl ⟨List.all_eq_true.1 hall x hx, hq⟩

/-! ## The values after reset -/

/-- A step whose first input that can be taken is reset answers the reset state, whether or not a handler step is due (R198(d)). -/
theorem step_of_reset {s : State} {pre rest : List Stimulus} (hs : s.stim = pre ++ .reset :: rest)
    (hpre : ∀ y ∈ pre, inputWaits s y) : step s = .next { s.clearOutputs with stim := pre ++ rest }.hardReset :=
  step_of_first hs hpre rfl (.inl rfl)

/-- Settles O11: `hardReset` puts these registers at 0 and empties both buffers. -/
theorem resetChosenValues : Obligations.ResetChosenValues := fun _ _ _ hs hpre =>
  ⟨_, step_of_reset hs hpre, rfl, rfl, rfl, rfl, rfl, rfl, rfl, rfl, fun _ => ⟨rfl, rfl⟩⟩

/-! ## Bytes without a value -/

/-- Branch W1 stops at the byte it would send (R133, U13). -/
theorem exec_busEvent_W1_unwritten {s : State} {w : StatusWord} (he : s.evPend = true) (hp : s.phase = .writing)
    (hw : 0 < s.wrem.toNat) (hb : Memory.read s.wptr.toNat s.txbuf = none) :
    exec (.busEvent w) s = .fault (.unwrittenTx s.wptr.toNat) := by
  rw [exec_busEvent he]
  simp only [dispatchEvent, State.afterSample, hp, hw, if_true, branchW1, hb]

theorem withDecoded_unwritten_first {s : State} (h0 : Memory.read 0 s.rxbuf = none) (k : Half → State) :
    withDecoded s k = .fault (.unwrittenRx 0) := by
  simp only [withDecoded, h0]

theorem withDecoded_unwritten_second {s : State} {b : Byte} (h0 : Memory.read 0 s.rxbuf = some b)
    (h1 : Memory.read 1 s.rxbuf = none) (k : Half → State) : withDecoded s k = .fault (.unwrittenRx 1) := by
  simp only [withDecoded, h0, h1]

/-- A continuation that stops stops its completion: no pulse, no retire (R139). -/
theorem completing_of_fault {c : Continuation} {s : State} {f : Fault} (hp : s.phase = .complete)
    (h : runContinuation c { s with phase := .complete, cpl := cplCleared s.cpl } = .fault f) :
    completing (some c) s = .fault f := by
  rw [completing_of_complete hp, complete, h]

/-- The three decodes stop where reading the two bytes stops, whatever they would do with the number (R172, R173, R174). -/
theorem exec_decode_of_fault {s : State} {i : Instr} {f : Fault} (hp : s.phase = .complete)
    (hi : i = .cplDecodeTemp ∨ i = .cplDecodeThyst ∨ i = .cplDecodeTos)
    (h : ∀ k, withDecoded { s with phase := .complete, cpl := cplCleared s.cpl } k = .fault f) : exec i s = .fault f := by
  rcases hi with rfl | rfl | rfl
  · exact completing_of_fault (c := .decodeTemp) hp (by rw [runContinuation, h])
  · exact completing_of_fault (c := .decodeThyst) hp (by rw [runContinuation, h])
  · exact completing_of_fault (c := .decodeTos) hp (by rw [runContinuation, h])

theorem hostReadTx_unwritten {s : State} {a : Byte} (hb : Memory.read a.toNat s.txbuf = none) :
    hostReadTx a s = .fault (.unwrittenTx a.toNat) := by
  simp only [hostReadTx, hb]

theorem hostReadRx_unwritten {s : State} {a : Byte} (ho : s.ownsRx a = false) (hb : Memory.read a.toNat s.rxbuf = none) :
    hostReadRx a s = .fault (.unwrittenRx a.toNat) := by
  simp only [hostReadRx, ho, Bool.false_eq_true, if_false, hb]

/-- Settles O28, one clause for each kind of read. -/
theorem unwrittenByteStopsTheStep : Obligations.UnwrittenByteStopsTheStep :=
  ⟨fun _ _ => exec_busEvent_W1_unwritten,
    fun _ _ hp hi => ⟨fun h0 => exec_decode_of_fault hp hi (withDecoded_unwritten_first h0),
      fun _ h0 h1 => exec_decode_of_fault hp hi (withDecoded_unwritten_second h0 h1)⟩,
    fun _ _ => hostReadTx_unwritten, fun _ _ => hostReadRx_unwritten⟩

end Sys2Proof.Machine
